-- ==== Sys2Proof/Word.lean ====
section
/-! DEFINITION. Word types: bytes, 16-bit values and sequences of exactly eight elements (00_scope R11, R12). -/

namespace Sys2Proof

/-- `u8` of 00_scope R11. -/
abbrev Byte := BitVec 8

/-- `u16` of 00_scope R11. -/
abbrev U16 := BitVec 16

/-- A byte position 0 to 7, the `u3` of 00_scope R11; its subtraction is modulo 8. -/
abbrev Pos := Fin 8

/-- A sequence of exactly eight elements, index 0 first (00_scope R12). -/
structure Oct (α : Type) where
  b0 : α
  b1 : α
  b2 : α
  b3 : α
  b4 : α
  b5 : α
  b6 : α
  b7 : α
deriving DecidableEq, Repr, Inhabited

/-- `bytes8` of 00_scope R12. -/
abbrev Bytes8 := Oct Byte

/-- `o[i]`. -/
def Oct.get {α : Type} (o : Oct α) : Pos → α
  | 0 => o.b0
  | 1 => o.b1
  | 2 => o.b2
  | 3 => o.b3
  | 4 => o.b4
  | 5 => o.b5
  | 6 => o.b6
  | 7 => o.b7

/-- The sequence whose element at `i` is `f i`: "for i in 0..7: o[i] = f i". -/
def Oct.ofFn {α : Type} (f : Pos → α) : Oct α :=
  ⟨f 0, f 1, f 2, f 3, f 4, f 5, f 6, f 7⟩

/-- `o` with the element at `j` replaced: "o[j] = a". -/
def Oct.set {α : Type} (o : Oct α) (j : Pos) (a : α) : Oct α :=
  Oct.ofFn fun i => if i = j then a else o.get i

/-- The elements in order of index. -/
def Oct.toList {α : Type} (o : Oct α) : List α :=
  [o.b0, o.b1, o.b2, o.b3, o.b4, o.b5, o.b6, o.b7]

end Sys2Proof
end

