-- ==== Sys2Proof/Config.lean ====
section
/-! DEFINITION. Literals of the spec, the parameters of a run and the values the spec leaves open. -/

namespace Sys2Proof

/-- `SHUFFLE`: eight positions that are a permutation of 0..7 (00_scope R9, 10_state R29). The proof that no position
repeats travels with the data, as 92 D2 asks: a configuration that is no permutation cannot be built. -/
structure Shuffle where
  pos : Oct Pos
  perm : pos.toList.Nodup
deriving DecidableEq, Repr

/-- The check at configuration time: a sequence of positions that is not a permutation is refused (40_transform R101). -/
def Shuffle.ofPositions? (pos : Oct Pos) : Option Shuffle :=
  if h : pos.toList.Nodup then some ⟨pos, h⟩ else none

/-- The positions of a permutation of 0..7, listed. -/
def Shuffle.ofPerm (e : Equiv.Perm Pos) : Shuffle where
  pos := Oct.ofFn e
  perm := by
    simp [Oct.ofFn, Oct.toList]

/-- The configuration inputs of 43_pipeline R175, installed before the first cycle and constant for a run. -/
structure Params where
  /-- `KEY` (10_state R27). -/
  key : Bytes8
  /-- `CSTATE` (10_state R28). -/
  cstate : Bytes8
  /-- `SHUFFLE` (10_state R29). -/
  shuffle : Shuffle
deriving DecidableEq, Repr

/-- `TERMINATOR = 0x0D` (00_scope R7). -/
def Config.terminator : Byte := 0x0D

/-- `CODE_CO2 = 0x50` (00_scope R7). -/
def Config.codeCo2 : Byte := 0x50

/-- `CODE_TEMP = 0x42` (00_scope R7). -/
def Config.codeTemp : Byte := 0x42

/-- The default value of `KEY` (00_scope R8; log 4). -/
def Config.defaultKey : Bytes8 := ⟨0xC4, 0xC6, 0xC0, 0x92, 0x40, 0x23, 0xDC, 0x96⟩

/-- Free value: the `CSTATE` of the machine after reset. The source gives none (00_scope R9, 92 D2; log 5). -/
opaque Config.cstate : Bytes8

/-- Free value: the `SHUFFLE` of the machine after reset, any permutation (00_scope R9, 92 D2; log 5). -/
opaque Config.shuffle : Equiv.Perm Pos

/-- Free value: `TIE` of 42_aggregator R144 (92 D10; log 7). For an exact half with quotient `q`, true stands for
`TIE(q) = q + 1` and false for `TIE(q) = q`. -/
opaque Config.tieUp : Int → Bool

/-- Free value: entry `c` of `VAL` after the `n`-th halt (10_state R24, 60_exceptions R195, 93 I15; log 6). -/
opaque Config.haltedVal : Nat → Byte → Option U16

/-- Free value: `LE_CO2` after the `n`-th halt (log 6). -/
opaque Config.haltedLeCo2 : Nat → Option U16

/-- Free value: `LE_TEMP` after the `n`-th halt (log 6). -/
opaque Config.haltedLeTemp : Nat → Option U16

/-- The parameters of the machine after reset. -/
def Config.resetParams : Params where
  key := Config.defaultKey
  cstate := Config.cstate
  shuffle := Shuffle.ofPerm Config.shuffle

end Sys2Proof
end

