-- ==== Sys2Proof/Syntax.lean ====
section
/-! DEFINITION. The words a cycle is selected by (30_encoding R70 to R75) and the operations they stand for: one
constructor per row of spec/opcode_table.json. -/

namespace Sys2Proof

/-- One sample of the input pins, format `P` (30_encoding R71): `ctl = rst ‖ cancel ‖ src_unavail ‖ in_valid` and
`in_data`. -/
structure PortInput where
  ctl : BitVec 4
  inData : BitVec 64
deriving DecidableEq, Repr

/-- The two formats that have rows in the opcode table: `P` the port level, `F` the frame level (30_encoding R70). -/
inductive Format where
  | P
  | F
deriving DecidableEq, Repr

/-- The word of an operation: a sample of the pins, or a packed plaintext frame (00_scope R14). -/
inductive InstrWord where
  | port (i : PortInput)
  | frame (w : BitVec 64)
deriving DecidableEq, Repr

/-- The operations. The first five are the port-level rows; the last four are the frame-level rows, which exist only
inside a `REPORT` cycle (30_encoding R70). `u5 u6 u7` are the unused bytes of the frame (30_encoding R81). -/
inductive Instr where
  /-- `RESET`, 70_reset_and_hazards R220. -/
  | reset
  /-- `CANCEL`, 60_exceptions R195. -/
  | cancel
  /-- `UNAVAIL`, 43_pipeline R173. -/
  | unavail
  /-- `REPORT`, 43_pipeline R172, with the eight raw bytes of the report. -/
  | report (raw : Bytes8)
  /-- `NODATA`, 43_pipeline R171. -/
  | nodata
  /-- `OBS.CO2`, 42_aggregator R160. -/
  | obsCo2 (value : U16) (u5 u6 u7 : Byte)
  /-- `OBS.TEMP`, 42_aggregator R161. -/
  | obsTemp (value : U16) (u5 u6 u7 : Byte)
  /-- `OBS.OTHER`, 42_aggregator R162. -/
  | obsOther (code : Byte) (value : U16) (u5 u6 u7 : Byte)
  /-- `BADFRAME`, 41_framedecoder R129, with the invalid frame. -/
  | badFrame (p : Bytes8)
deriving DecidableEq, Repr

end Sys2Proof
end

