-- ==== Sys2Proof/WellFormed.lean ====
section
/-! DEFINITION. Which terms of `Instr` stand for an operation: the checks that the frame-level map puts on operands. -/

namespace Sys2Proof

/-- A frame is valid when `TERM = 0x0D` and `CHK = (CODE + VH + VL) mod 256` (30_encoding R78). -/
def Frame.isValid (p : Bytes8) : Bool :=
  p.b4 == Config.terminator && p.b3.toNat == (p.b0.toNat + p.b1.toNat + p.b2.toNat) % 256

/-- `OBS.OTHER` carries a code other than 0x50 and 0x42, and `BADFRAME` a frame that is not valid (30_encoding R78);
every other operand value is admitted. -/
def Instr.wellFormed : Instr → Bool
  | .reset => true
  | .cancel => true
  | .unavail => true
  | .report _ => true
  | .nodata => true
  | .obsCo2 _ _ _ _ => true
  | .obsTemp _ _ _ _ => true
  | .obsOther code _ _ _ _ => code != Config.codeCo2 && code != Config.codeTemp
  | .badFrame p => !Frame.isValid p

end Sys2Proof
end

