-- ==== Sys2Proof/Decode.lean ====
section
/-! DEFINITION. Packing, the decoder of both formats (30_encoding R71 to R81), the encoder, and the host's
`decodeTableWord`. -/

namespace Sys2Proof

/-- Eight bytes as one 64-bit word, byte 0 in bits 63..56 (00_scope R14). -/
def pack (b : Bytes8) : BitVec 64 :=
  b.b0 ++ b.b1 ++ b.b2 ++ b.b3 ++ b.b4 ++ b.b5 ++ b.b6 ++ b.b7

/-- `b[i] = W[63-8i : 56-8i]` (00_scope R14, 30_encoding R71). -/
def unpack (w : BitVec 64) : Bytes8 :=
  Oct.ofFn fun i => w.extractLsb' (56 - 8 * i.val) 8

/-- `(word & mask) = match`, the test of an opcode-table row. -/
def matchesRow {n : Nat} (word mtch mask : BitVec n) : Bool :=
  word &&& mask == mtch

/-- The port-level operation of a sample of the pins, rows tried in the order of 30_encoding R72. The last row,
`NODATA` with match 0b0000 and mask 0b1111, takes what the four before it leave. -/
def decodePort (i : PortInput) : Instr :=
  if matchesRow i.ctl 0b1000 0b1000 then .reset
  else if matchesRow i.ctl 0b0100 0b1100 then .cancel
  else if matchesRow i.ctl 0b0010 0b1110 then .unavail
  else if matchesRow i.ctl 0b0001 0b1111 then .report (unpack i.inData)
  else .nodata

/-- `VALUE = (VH << 8) | VL` of a packed frame (30_encoding R76). -/
def frameValue (w : BitVec 64) : U16 :=
  (unpack w).b1 ++ (unpack w).b2

/-- The further constraint of the three `OBS` rows: `CHK = (CODE + VH + VL) mod 256` (30_encoding R77, R78). -/
def frameSumOk (w : BitVec 64) : Bool :=
  (unpack w).b3 == (unpack w).b0 + (unpack w).b1 + (unpack w).b2

/-- The frame-level operation of a packed plaintext frame, rows tried in the order of 30_encoding R78. -/
def decodeFrame (w : BitVec 64) : Instr :=
  let p := unpack w
  if matchesRow w 0x500000000D000000 0xFF000000FF000000 && frameSumOk w then .obsCo2 (frameValue w) p.b5 p.b6 p.b7
  else if matchesRow w 0x420000000D000000 0xFF000000FF000000 && frameSumOk w then .obsTemp (frameValue w) p.b5 p.b6 p.b7
  else if matchesRow w 0x000000000D000000 0x00000000FF000000 && frameSumOk w then
    .obsOther p.b0 (frameValue w) p.b5 p.b6 p.b7
  else .badFrame p

/-- The operation of a word of either format. Total: no control word and no frame is reserved or illegal
(30_encoding R72, R79, R80). -/
def decodeWord : InstrWord → Instr
  | .port i => decodePort i
  | .frame w => decodeFrame w

/-- Why bytes stand for no word of a format. -/
inductive DecodeError where
  /-- Format `F` takes exactly 8 bytes (20_memory R54); format `P` takes the control byte and 8 data bytes. Safe. -/
  | wrongLength
  /-- The control word has 4 bits (30_encoding R71); the byte that carries it has a higher bit set. Safe. -/
  | controlWordTooWide
deriving DecidableEq, Repr

/-- Eight bytes from a list of exactly eight. -/
def bytes8OfList? : List Byte → Option Bytes8
  | [b0, b1, b2, b3, b4, b5, b6, b7] => some ⟨b0, b1, b2, b3, b4, b5, b6, b7⟩
  | _ => none

/-- The word that bytes stand for. Format `F`: the frame, byte 0 first. Format `P`: the control word in the low four
bits of a byte, then the eight bytes of `in_data`, byte 0 first (the byte layout of `P` is the model's, log 10). -/
def wordOfBytes : Format → List Byte → Except DecodeError InstrWord
  | .F, bytes =>
    match bytes8OfList? bytes with
    | some p => .ok (.frame (pack p))
    | none => .error .wrongLength
  | .P, [] => .error .wrongLength
  | .P, ctl :: bytes =>
    match bytes8OfList? bytes with
    | some d => if ctl.toNat < 16 then .ok (.port ⟨ctl.setWidth 4, pack d⟩) else .error .controlWordTooWide
    | none => .error .wrongLength

/-- The decoder on any bytes: it rejects by name what is no word of the format. -/
def decodeBytes (f : Format) (bytes : List Byte) : Except DecodeError Instr :=
  (wordOfBytes f bytes).map decodeWord

/-! The encoder. -/

/-- The plaintext frame `FIELD code, value, u5, u6, u7` of 30_encoding R82. -/
def fieldFrame (code : Byte) (value : U16) (u5 u6 u7 : Byte) : Bytes8 where
  b0 := code
  b1 := value.extractLsb' 8 8
  b2 := value.extractLsb' 0 8
  b3 := code + value.extractLsb' 8 8 + value.extractLsb' 0 8
  b4 := Config.terminator
  b5 := u5
  b6 := u6
  b7 := u7

/-- The word of an operation, with every ignored bit 0 (30_encoding R72, R78). -/
def encode : Instr → InstrWord
  | .reset => .port ⟨0b1000, 0⟩
  | .cancel => .port ⟨0b0100, 0⟩
  | .unavail => .port ⟨0b0010, 0⟩
  | .report raw => .port ⟨0b0001, pack raw⟩
  | .nodata => .port ⟨0b0000, 0⟩
  | .obsCo2 value u5 u6 u7 => .frame (pack (fieldFrame Config.codeCo2 value u5 u6 u7))
  | .obsTemp value u5 u6 u7 => .frame (pack (fieldFrame Config.codeTemp value u5 u6 u7))
  | .obsOther code value u5 u6 u7 => .frame (pack (fieldFrame code value u5 u6 u7))
  | .badFrame p => .frame (pack p)

/-! The host's numbering of words. -/

/-- The bytes that a word of `nbits` bits of spec/opcode_table.json stands for, and their format (log 10).
Up to 8 bits: the control word of format `P`, its data bytes 0. Up to 64 bits: a packed frame of format `F`.
Up to 72 bits: the control byte of format `P` and then, from bit 8 up, its eight data bytes. -/
def tableBytes (nbits w : Nat) : Option (Format × List Byte) :=
  if 2 ^ nbits ≤ w then none
  else if nbits ≤ 8 then some (.P, [BitVec.ofNat 8 w, 0, 0, 0, 0, 0, 0, 0, 0])
  else if nbits ≤ 64 then some (.F, (unpack (BitVec.ofNat 64 w)).toList)
  else if nbits ≤ 72 then
    some (.P, (List.range 9).map fun k => BitVec.ofNat 8 (w >>> (8 * k)))
  else none

/-- The word of either format that a numbered word of the opcode table stands for. -/
def tableWord (nbits w : Nat) : Option InstrWord :=
  match tableBytes nbits w with
  | some (f, bytes) =>
    match wordOfBytes f bytes with
    | .ok iw => some iw
    | .error _ => none
  | none => none

/-- What the decoder reads from a numbered word of the opcode table. -/
def decodeTableWord (nbits w : Nat) : Option Instr :=
  (tableWord nbits w).map decodeWord

end Sys2Proof
end

