-- ==== Sys2Proof/Machine/State.lean ====
section
/-! DEFINITION. The state of the block as plain data, the reasons a step can stop, and the state after reset. -/

namespace Sys2Proof.Machine

/-- One present entry of the field table: its code and its value (10_state R21). -/
abbrev FieldCell := Nat × U16

/-- `VAL`: the present entries, codes strictly rising; a code that is not listed reads as `None` (10_state R21; log 8).
This is what the spec calls memory (20_memory R50), its unit of access one whole entry (20_memory R51). -/
abbrev Memory := List FieldCell

/-- The listed codes are strictly rising from `lo` on and are codes of the field-code space 0x00..0xFF. -/
def Memory.risingFrom : Nat → Memory → Bool
  | _, [] => true
  | lo, (c, _) :: rest => decide (lo ≤ c) && decide (c < 256) && Memory.risingFrom (c + 1) rest

/-- The canonical form of the field table. -/
def Memory.wf (m : Memory) : Bool :=
  Memory.risingFrom 0 m

/-- `RUN` (10_state R24). -/
inductive RunFlag where
  | running
  | halted
deriving DecidableEq, Repr

/-- The status of a cycle (43_pipeline R174). -/
inductive Status where
  | noData
  | stored
  | emit
  | chkFail
  | unavail
  | halted
  | reset
deriving DecidableEq, Repr

/-- A Reading (42_aggregator R155): `tempT80` is a temperature in units of 1/80 degree Celsius. -/
structure Reading where
  co2 : U16
  tempValid : Bool
  tempT80 : Int
deriving DecidableEq, Repr

/-- The output record of a cycle (43_pipeline R174). -/
structure OutRecord where
  status : Status
  reading : Option Reading
deriving DecidableEq, Repr

/-- The output record in pin form (43_pipeline R174). -/
structure OutPins where
  status : BitVec 3
  outValid : BitVec 1
  outCo2 : BitVec 16
  outTempValid : BitVec 1
  outT80 : BitVec 20
deriving DecidableEq, Repr

/-- The two error kinds (60_exceptions R190). -/
inductive ErrorKind where
  /-- `ValidationError::ChecksumFailed`, 60_exceptions R191. -/
  | checksumFailed
  /-- `SourceUnavailable`, 60_exceptions R192. -/
  | sourceUnavailable
deriving DecidableEq, Repr

/-- A successfully decoded field (41_framedecoder R120). -/
structure DecodedField where
  code : Byte
  value : U16
deriving DecidableEq, Repr

/-- The aggregator's two phases (10_state R25). -/
inductive Phase where
  | idle
  | active
deriving DecidableEq, Repr

/-- Faults of the machine: none. Nothing raises one: every operation of the block is total, both error kinds are next
states, and no cycle stops the block (43_pipeline R179, 60_exceptions R193, R198). Safe. -/
inductive Fault where
deriving DecidableEq, Repr

/-- Refusals. -/
inductive Refusal where
  /-- An instruction without a meaning, rejected by name in `exec`'s arm. No arm raises it: all nine operations are
  modelled. Safe. -/
  | notModelled (mnemonic : String)
deriving DecidableEq, Repr

/-- The state of the block between two cycles. -/
structure State where
  /-- `RUN` (10_state R24). -/
  run : RunFlag
  /-- `VAL` (10_state R21). -/
  val : Memory
  /-- `LE_CO2` (10_state R22). -/
  leCo2 : Option U16
  /-- `LE_TEMP` (10_state R23). -/
  leTemp : Option U16
  /-- `KEY`, `CSTATE`, `SHUFFLE`: configuration inputs, constant for a run (10_state R27 to R29; log 12). -/
  params : Params
  /-- The model's own: samples of the input pins that the environment has presented and no cycle has taken (log 1). -/
  inputs : List PortInput
  /-- The model's own: how many `CANCEL`s were accepted; it selects the free values of a halt (log 6). -/
  halts : Nat
deriving DecidableEq, Repr

/-- What a cycle gives, as `STEP` of 43_pipeline R179 does: the state the next cycle starts from, and the output record.
The record is a combinational result of the cycle and no part of the state, so that no Reading is carried into the next
cycle (10_state R26, R32; log 3). -/
structure CycleResult where
  state : State
  out : OutRecord
deriving DecidableEq, Repr

/-- The machine right after reset (10_state R36, 70_reset_and_hazards R220), with nothing presented at the ports. -/
def State.reset : State where
  run := .running
  val := []
  leCo2 := none
  leTemp := none
  params := Config.resetParams
  inputs := []
  halts := 0

end Sys2Proof.Machine
end

