-- ==== Sys2Proof/Machine/Ops.lean ====
section
/-! DEFINITION. The named operations over the field table, the ports and the output record; taking an error; reset and
halt. -/

namespace Sys2Proof.Machine

/-! The field table (20_memory R51). -/

/-- `VAL[c]`. -/
def Memory.read (m : Memory) (c : Byte) : Option U16 :=
  match m with
  | [] => none
  | (k, v) :: rest => if k = c.toNat then some v else Memory.read rest c

/-- `VAL[c] <- Some v`. -/
def Memory.write (m : Memory) (c : Byte) (v : U16) : Memory :=
  match m with
  | [] => [(c.toNat, v)]
  | (k, w) :: rest =>
    if c.toNat < k then (c.toNat, v) :: (k, w) :: rest
    else if c.toNat = k then (c.toNat, v) :: rest
    else (k, w) :: Memory.write rest c v

/-- The field table whose entry `c` is `f c`. -/
def Memory.ofEntries (f : Byte → Option U16) : Memory :=
  (List.range 256).filterMap fun k => (f (BitVec.ofNat 8 k)).map fun v => (k, v)

/-- `MemRead(c, 1)` (20_memory R51). -/
def memRead (c : Byte) (s : State) : Option U16 :=
  s.val.read c

/-- `MemWrite(c, 1, v)` (20_memory R51). -/
def memWrite (c : Byte) (v : U16) (s : State) : State :=
  { s with val := s.val.write c v }

/-! The ports (43_pipeline R174, R175). -/

/-- The sample of the pins when the environment presents nothing: all control inputs 0 (log 2). -/
def idleInput : PortInput := ⟨0b0000, 0⟩

/-- The sample that the next cycle takes, and the state once it is taken (20_memory R56: each poll consumes one). -/
def takeInput (s : State) : PortInput × State :=
  match s.inputs with
  | [] => (idleInput, s)
  | i :: rest => (i, { s with inputs := rest })

/-- One more sample, to be taken before those already presented. -/
def presentFirst (i : PortInput) (s : State) : State :=
  { s with inputs := i :: s.inputs }

/-- The cycle ends in this state with this output record (43_pipeline R174). -/
def endCycle (status : Status) (reading : Option Reading) (s : State) : CycleResult :=
  ⟨s, ⟨status, reading⟩⟩

/-- The status code of 43_pipeline R174; 7 is never produced. -/
def Status.code : Status → BitVec 3
  | .noData => 0
  | .stored => 1
  | .emit => 2
  | .chkFail => 3
  | .unavail => 4
  | .halted => 5
  | .reset => 6

/-- The pin form of an output record (43_pipeline R174): the data outputs are driven to 0 when `out_valid = 0`, and
`out_t80` is two's complement. -/
def OutRecord.pins (o : OutRecord) : OutPins :=
  match o.reading with
  | some r =>
    { status := o.status.code, outValid := 1, outCo2 := r.co2, outTempValid := BitVec.ofBool r.tempValid,
      outT80 := BitVec.ofInt 20 r.tempT80 }
  | none => { status := o.status.code, outValid := 0, outCo2 := 0, outTempValid := 0, outT80 := 0 }

/-! Errors (60_exceptions R190 to R198). -/

/-- The status that carries an error (60_exceptions R191, R192). -/
def ErrorKind.status : ErrorKind → Status
  | .checksumFailed => .chkFail
  | .sourceUnavailable => .unavail

/-- Taking an error: nothing is saved, no mode is switched, no control is transferred; the rest of the cycle is skipped,
the state stays, and the output record carries the code (60_exceptions R197). There is no return from it: the next cycle
is an ordinary one (60_exceptions R198). -/
def raiseError (e : ErrorKind) (s : State) : CycleResult :=
  endCycle e.status none s

/-! Reset, halt and the guard of every other operation (43_pipeline R179). -/

/-- Installs the reset values of 10_state R36; the parameters and what is presented at the ports stay
(70_reset_and_hazards R220). -/
def installReset (s : State) : State :=
  { s with run := .running, val := [], leCo2 := none, leTemp := none }

/-- The block halts: `RUN <- Halted`, and the aggregator's state is no longer defined (60_exceptions R195), so that each
of its parts takes a free value (log 6). -/
def haltBlock (s : State) : State :=
  { s with
    run := .halted
    val := Memory.ofEntries (Config.haltedVal s.halts)
    leCo2 := Config.haltedLeCo2 s.halts
    leTemp := Config.haltedLeTemp s.halts
    halts := s.halts + 1 }

/-- One cycle of an operation other than `RESET`: in `Halted` it is ignored and answers `ST_HALTED`
(30_encoding R72, 60_exceptions R195). -/
def whileRunning (f : State → CycleResult) (s : State) : CycleResult :=
  match s.run with
  | .running => f s
  | .halted => endCycle .halted none s

end Sys2Proof.Machine
end

