-- ==== Sys2Proof/Machine/Operands.lean ====
section
/-! DEFINITION. Operand assembly: the fields of a plaintext frame, the 16-bit value, the expected checksum, and the
temperature forms. -/

namespace Sys2Proof.Machine

/-- `VALUE = (VH << 8) | VL`, zero-extended (30_encoding R76, 41_framedecoder R124). -/
def valueOf (vh vl : Byte) : U16 :=
  (vh.setWidth 16 <<< 8) ||| vl.setWidth 16

/-- `CHK_expected = (CODE + VH + VL) mod 256`, formed on unbounded integers and then reduced (30_encoding R77). -/
def expectedSum (code vh vl : Byte) : Nat :=
  (code.toNat + vh.toNat + vl.toNat) % 256

/-- EXTRACT: the field of a frame that passed both checks (41_framedecoder R124). -/
def extractField (p : Bytes8) : DecodedField :=
  ⟨p.b0, valueOf p.b1 p.b2⟩

/-- TCONV: `T80(v) = 5 * v - 21852`, in units of 1/80 degree Celsius, exactly (42_aggregator R143; log 14). -/
def tconv (v : U16) : Int :=
  5 * (v.toNat : Int) - 21852

/-- The temperature of a Reading from `VAL[0x42]`: `temp_valid` and `temp_t80` (42_aggregator R146, R147). -/
def readingTemp : Option U16 → Bool × Int
  | some tv => (true, tconv tv)
  | none => (false, 0)

/-- ROUND1: tenths of a degree Celsius from units of 1/80 degree; `tie q` says whether an exact half is `q + 1`
(42_aggregator R144). No operation of the block uses it; it is specified for consumers of a Reading. -/
def round1 (tie : Int → Bool) (t : Int) : Int :=
  let q := t / 8
  let r := t % 8
  if r < 4 then q
  else if r > 4 then q + 1
  else if tie q then q + 1
  else q

/-- ROUND1 with the open parameter `TIE` (log 7). -/
def tenths (t : Int) : Int :=
  round1 Config.tieUp t

end Sys2Proof.Machine
end

