-- ==== Sys2Proof/Machine/Flags.lean ====
section
/-! DEFINITION. Conditions. The block has no arithmetic condition code (10_state R26): its flags are presence bits, the
derived phase, the two checks of a frame and the emission condition. -/

namespace Sys2Proof.Machine

/-- The presence bit `VP[c]` (10_state R21). -/
def presenceBit (c : Byte) (s : State) : Bool :=
  (memRead c s).isSome

/-- `PHASE` (10_state R25): derived, not stored. -/
def phase (s : State) : Phase :=
  match memRead Config.codeCo2 s with
  | none => .idle
  | some _ => .active

/-- CHKTERM (41_framedecoder R121). -/
def chkTerm (p : Bytes8) : Bool :=
  p.b4 == Config.terminator

/-- CHKSUM (41_framedecoder R122). -/
def chkSum (p : Bytes8) : Bool :=
  p.b3.toNat == expectedSum p.b0 p.b1 p.b2

/-- EMITCOND: a CO2 field, the first ever or different from the last emitted value (42_aggregator R145). -/
def emitCond (code : Byte) (value : U16) (s : State) : Bool :=
  code == Config.codeCo2 && (s.leCo2 == none || s.leCo2 != some value)

/-- The literal form of the emission condition, evaluated after STORE for any code (42_aggregator R157). The machine uses
`emitCond`; this one is stated for the comparison. -/
def condB (s : State) : Bool :=
  memRead Config.codeCo2 s != none && (s.leCo2 == none || s.leCo2 != memRead Config.codeCo2 s)

end Sys2Proof.Machine
end

