-- ==== Sys2Proof/Machine/Aggregator.lean ====
section
/-! DEFINITION. The ReadingAggregator (42_aggregator) and the meanings of `OBS.CO2`, `OBS.TEMP`, `OBS.OTHER`. -/

namespace Sys2Proof.Machine

/-- STORE: `VAL[fieldCode] <- Some value`, for every code (42_aggregator R141). -/
def store (code : Byte) (value : U16) (s : State) : State :=
  memWrite code value s

/-- The Reading that EMIT builds: the CO2 value and the last known temperature (42_aggregator R146, R155). -/
def buildReading (value : U16) (t : Option U16) : Reading where
  co2 := value
  tempValid := (readingTemp t).1
  tempT80 := (readingTemp t).2

/-- EMIT: the Reading, and `LE_CO2 <- Some value`, `LE_TEMP <- VAL[0x42]` (42_aggregator R146). -/
def emit (value : U16) (s : State) : State × Reading :=
  let t := memRead Config.codeTemp s
  ({ s with leCo2 := some value, leTemp := t }, buildReading value t)

/-- OBSERVE (42_aggregator R140). The emission condition reads `LE_CO2`, which STORE leaves as it was. -/
def observe (code : Byte) (value : U16) (s : State) : State × Option Reading :=
  let s1 := store code value s
  if emitCond code value s1 then
    let e := emit value s1
    (e.1, some e.2)
  else (s1, none)

/-- The end of a `REPORT` cycle that has a field: `ST_EMIT` with the Reading, or `ST_STORED` (43_pipeline R172). -/
def observeCycle (code : Byte) (value : U16) (s : State) : CycleResult :=
  match observe code value s with
  | (s1, some r) => endCycle .emit (some r) s1
  | (s1, none) => endCycle .stored none s1

/-- The cycle of `OBS.CO2` (42_aggregator R160). -/
def obsCo2Cycle (value : U16) (s : State) : CycleResult :=
  whileRunning (observeCycle Config.codeCo2 value) s

/-- The cycle of `OBS.TEMP` (42_aggregator R161). -/
def obsTempCycle (value : U16) (s : State) : CycleResult :=
  whileRunning (observeCycle Config.codeTemp value) s

/-- The cycle of `OBS.OTHER` (42_aggregator R162; for the codes 0x50 and 0x42 see log 11). -/
def obsOtherCycle (code : Byte) (value : U16) (s : State) : CycleResult :=
  whileRunning (observeCycle code value) s

/-- `OBS.CO2` (42_aggregator R160). -/
def execObsCo2 (value : U16) (s : State) : Host.Outcome State Fault Refusal :=
  .next (obsCo2Cycle value s).state

/-- `OBS.TEMP` (42_aggregator R161). -/
def execObsTemp (value : U16) (s : State) : Host.Outcome State Fault Refusal :=
  .next (obsTempCycle value s).state

/-- `OBS.OTHER` (42_aggregator R162). -/
def execObsOther (code : Byte) (value : U16) (s : State) : Host.Outcome State Fault Refusal :=
  .next (obsOtherCycle code value s).state

end Sys2Proof.Machine
end

