-- ==== Sys2Proof/Machine/FrameDecoder.lean ====
section
/-! DEFINITION. The FrameDecoder (41_framedecoder) and the meaning of `BADFRAME`. -/

namespace Sys2Proof.Machine

/-- DECODE: both checks and then the field, or the one error (41_framedecoder R120, R123). -/
def decodeReport (p : Bytes8) : Except ErrorKind DecodedField :=
  if chkTerm p && chkSum p then .ok (extractField p) else .error .checksumFailed

/-- The cycle of `BADFRAME` (41_framedecoder R129): `ChecksumFailed`, always; nothing of the frame is kept. -/
def badFrameCycle (_p : Bytes8) (s : State) : CycleResult :=
  whileRunning (raiseError .checksumFailed) s

/-- `BADFRAME` (41_framedecoder R129). -/
def execBadFrame (p : Bytes8) (s : State) : Host.Outcome State Fault Refusal :=
  .next (badFrameCycle p s).state

end Sys2Proof.Machine
end

