-- ==== Sys2Proof/Machine/Transform.lean ====
section
/-! DEFINITION. The Transform: five stages and their composition (40_transform), and its inverse, which is no function of
the hardware. -/

namespace Sys2Proof.Machine

/-- The positions 0 to 7 in order. -/
def positions : List Pos := [0, 1, 2, 3, 4, 5, 6, 7]

/-- UNSHUFFLE, the scatter "for i in 0..7: u[SHUFFLE[i]] = raw[i]" (40_transform R101). Every position is written, since
`SHUFFLE` is a permutation, so that nothing of the initial sequence remains. -/
def unshuffle (sh : Shuffle) (raw : Bytes8) : Bytes8 :=
  positions.foldl (fun u i => u.set (sh.pos.get i) (raw.get i)) raw

/-- XORKEY (40_transform R102). -/
def xorKey (key u : Bytes8) : Bytes8 :=
  Oct.ofFn fun i => u.get i ^^^ key.get i

/-- ROTMIX: `m[i] = ((x[i] >> 3) | (x[(i-1) mod 8] << 5)) & 0xFF`, all eight from the array before mixing
(40_transform R103). -/
def rotMix (x : Bytes8) : Bytes8 :=
  Oct.ofFn fun i => (x.get i >>> 3) ||| (x.get (i - 1) <<< 5)

/-- NIBSWAP of one byte (40_transform R104). -/
def nibSwapByte (b : Byte) : Byte :=
  (b >>> 4) ||| (b <<< 4)

/-- NIBSWAP: the constant `NS` of `CSTATE` (40_transform R104, 10_state R30). -/
def nibSwap (cstate : Bytes8) : Bytes8 :=
  Oct.ofFn fun i => nibSwapByte (cstate.get i)

/-- MODSUB: `p[i] = (256 + m[i] - ns[i]) mod 256` (40_transform R105). -/
def modSub (m ns : Bytes8) : Bytes8 :=
  Oct.ofFn fun i => BitVec.ofNat 8 ((256 + (m.get i).toNat - (ns.get i).toNat) % 256)

/-- TRANSFORM, the stages in their order (40_transform R100, R106). -/
def transform (c : Params) (raw : Bytes8) : Bytes8 :=
  modSub (rotMix (xorKey c.key (unshuffle c.shuffle raw))) (nibSwap c.cstate)

/-- The first stage of INVERSE: `m[i] = (p[i] + ns[i]) mod 256` (40_transform R108). -/
def modAdd (p ns : Bytes8) : Bytes8 :=
  Oct.ofFn fun i => p.get i + ns.get i

/-- The second stage of INVERSE: `x[i] = ((m[i] << 3) | (m[(i+1) mod 8] >> 5)) & 0xFF` (40_transform R108). -/
def unmix (m : Bytes8) : Bytes8 :=
  Oct.ofFn fun i => (m.get i <<< 3) ||| (m.get (i + 1) >>> 5)

/-- The last stage of INVERSE: `raw[i] = u[SHUFFLE[i]]` (40_transform R108). -/
def gather (sh : Shuffle) (u : Bytes8) : Bytes8 :=
  Oct.ofFn fun i => u.get (sh.pos.get i)

/-- INVERSE (40_transform R108): the wire form of a frame, to build inputs with (30_encoding R82 `FRAME`). -/
def inverse (c : Params) (p : Bytes8) : Bytes8 :=
  gather c.shuffle (xorKey c.key (unmix (modAdd p (nibSwap c.cstate))))

end Sys2Proof.Machine
end

