-- ==== Sys2Proof/Machine/Port.lean ====
section
/-! DEFINITION. The meanings of the five port-level operations (43_pipeline, 60_exceptions R195,
70_reset_and_hazards R220), and the sample of the pins that a word of the opcode table is presented as. -/

namespace Sys2Proof.Machine

/-- The cycle of `RESET` (70_reset_and_hazards R220): in either run state. -/
def resetCycle (s : State) : CycleResult :=
  endCycle .reset none (installReset s)

/-- The cycle of `CANCEL` (60_exceptions R195): while already `Halted` it changes nothing. -/
def cancelCycle (s : State) : CycleResult :=
  whileRunning (fun s => endCycle .halted none (haltBlock s)) s

/-- The cycle of `UNAVAIL` (43_pipeline R173). -/
def unavailCycle (s : State) : CycleResult :=
  whileRunning (raiseError .sourceUnavailable) s

/-- The cycle of `NODATA` (43_pipeline R171). -/
def nodataCycle (s : State) : CycleResult :=
  whileRunning (endCycle .noData none) s

/-- The pipeline of a `REPORT`: Transform, FrameDecoder, ReadingAggregator, in this order (43_pipeline R172). -/
def pipeline (raw : Bytes8) (s : State) : CycleResult :=
  match decodeReport (transform s.params raw) with
  | .error e => raiseError e s
  | .ok f => observeCycle f.code f.value s

/-- The cycle of `REPORT` (43_pipeline R172). -/
def reportCycle (raw : Bytes8) (s : State) : CycleResult :=
  whileRunning (pipeline raw) s

/-- `RESET` (70_reset_and_hazards R220). -/
def execReset (s : State) : Host.Outcome State Fault Refusal :=
  .next (resetCycle s).state

/-- `CANCEL` (60_exceptions R195). -/
def execCancel (s : State) : Host.Outcome State Fault Refusal :=
  .next (cancelCycle s).state

/-- `UNAVAIL` (43_pipeline R173). -/
def execUnavail (s : State) : Host.Outcome State Fault Refusal :=
  .next (unavailCycle s).state

/-- `NODATA` (43_pipeline R171). -/
def execNodata (s : State) : Host.Outcome State Fault Refusal :=
  .next (nodataCycle s).state

/-- `REPORT` (43_pipeline R172). -/
def execReport (raw : Bytes8) (s : State) : Host.Outcome State Fault Refusal :=
  .next (reportCycle raw s).state

/-- The sample of the pins that makes a cycle run a word: a control word as it is; a frame as a `REPORT` of its wire form
under the parameters of the run (30_encoding R82 `FRAME`; log 1, log 10). -/
def inputOfWord (c : Params) : InstrWord → PortInput
  | .port i => i
  | .frame w => ⟨0b0001, pack (inverse c (unpack w))⟩

/-- The sample for a numbered word of the opcode table; none where the decoder reads nothing from it. -/
def inputOfTableWord (c : Params) (nbits w : Nat) : Option PortInput :=
  (tableWord nbits w).map (inputOfWord c)

/-- The state with the word's sample presented for the next cycle. -/
def presentTableWord (s : State) (nbits w : Nat) : State :=
  match inputOfTableWord s.params nbits w with
  | some i => presentFirst i s
  | none => s

end Sys2Proof.Machine
end

