-- ==== Sys2Proof/Machine/Dispatch.lean ====
section
/-! DEFINITION. One arm per operation. -/

namespace Sys2Proof.Machine

def exec (i : Instr) (s : State) : Host.Outcome State Fault Refusal :=
  match i with
  | .reset => Sys2Proof.Machine.execReset s
  | .cancel => Sys2Proof.Machine.execCancel s
  | .unavail => Sys2Proof.Machine.execUnavail s
  | .report raw => Sys2Proof.Machine.execReport raw s
  | .nodata => Sys2Proof.Machine.execNodata s
  | .obsCo2 value _ _ _ => Sys2Proof.Machine.execObsCo2 value s
  | .obsTemp value _ _ _ => Sys2Proof.Machine.execObsTemp value s
  | .obsOther code value _ _ _ => Sys2Proof.Machine.execObsOther code value s
  | .badFrame p => Sys2Proof.Machine.execBadFrame p s

end Sys2Proof.Machine
end

