-- ==== Sys2Proof/Machine/Step.lean ====
section
/-! DEFINITION. One cycle of the block (43_pipeline R170, R179), and the host's placing of a word. -/

namespace Sys2Proof.Machine

/-- One cycle: the next sample of the pins is taken, and the operation it selects is performed completely
(43_pipeline R170). -/
def step (s : State) : Host.Outcome State Fault Refusal :=
  exec (decodePort (takeInput s).1) (takeInput s).2

/-- `s` with a numbered word of the opcode table presented for the next cycle (log 1, log 10). -/
def State.withFetchWord (s : State) (nbits w : Nat) : State :=
  presentTableWord s nbits w

end Sys2Proof.Machine
end

