-- ==== Sys2Proof/Machine/Cycle.lean ====
section
/-! DEFINITION. A cycle with its output record: what `exec` and `step` do to the state, and what the ports show
meanwhile (43_pipeline R174, R179; log 3). -/

namespace Sys2Proof.Machine

/-- The cycle that performs an operation: its state is the next state of `exec`, its output record is what the ports
show in that cycle. -/
def cycle (i : Instr) (s : State) : CycleResult :=
  match i with
  | .reset => resetCycle s
  | .cancel => cancelCycle s
  | .unavail => unavailCycle s
  | .report raw => reportCycle raw s
  | .nodata => nodataCycle s
  | .obsCo2 value _ _ _ => obsCo2Cycle value s
  | .obsTemp value _ _ _ => obsTempCycle value s
  | .obsOther code value _ _ _ => obsOtherCycle code value s
  | .badFrame p => badFrameCycle p s

/-- The output record of an operation performed in a state. -/
def outputOf (i : Instr) (s : State) : OutRecord :=
  (cycle i s).out

/-- The output record of the cycle that `step` performs: what the sink receives in that cycle (43_pipeline R176). -/
def output (s : State) : OutRecord :=
  outputOf (decodePort (takeInput s).1) (takeInput s).2

end Sys2Proof.Machine
end

