-- ==== Sys2Proof/Safety.lean ====
section
/-! DEFINITION. The terms of claims: the invariant of the state, what a cycle reads, and what a run shows outside. -/

namespace Sys2Proof.Machine

/-- INV1 and INV3 of 10_state R37. -/
def State.aggregatorInv (s : State) : Bool :=
  decide (s.leCo2 = memRead Config.codeCo2 s) &&
    (s.leTemp.isNone || ((memRead Config.codeTemp s).isSome && s.leCo2.isSome))

/-- The invariant that every step keeps: the field table has its canonical form, and while `RUN = Running` INV1 and INV3
of 10_state R37 hold. -/
def State.inv (s : State) : Bool :=
  s.val.wf && (s.run == .halted || s.aggregatorInv)

/-- The operation that the next cycle performs. -/
def nextOp (s : State) : Instr :=
  decodePort (takeInput s).1

/-- The field that a sample of the pins delivers to the aggregator of a running block, if any. -/
def fieldOf (c : Params) (i : PortInput) : Option DecodedField :=
  match decodePort i with
  | .report raw =>
    match decodeReport (transform c raw) with
    | .ok f => some f
    | .error _ => none
  | _ => none

/-- A sample that neither resets nor cancels: a poll operation. -/
def isPoll (i : PortInput) : Bool :=
  decodePort i != .reset && decodePort i != .cancel

/-- The fields that a list of samples delivers, in order. -/
def fieldsOf (c : Params) (ins : List PortInput) : List DecodedField :=
  ins.filterMap (fieldOf c)

/-- The value of the last of these fields that carries the code, if one does. -/
def latestValue (code : Byte) (fs : List DecodedField) : Option U16 :=
  (fs.reverse.find? fun f => f.code == code).map (·.value)

/-- No CO2 field among these samples. -/
def noCo2 (c : Params) (ins : List PortInput) : Prop :=
  ∀ f ∈ fieldsOf c ins, f.code ≠ Config.codeCo2

/-- Every CO2 field among these samples carries `v`. -/
def co2Only (c : Params) (v : U16) (ins : List PortInput) : Prop :=
  ∀ f ∈ fieldsOf c ins, f.code = Config.codeCo2 → f.value = v

/-- A plaintext frame that passes both checks (41_framedecoder R121, R122), in the spec's own arithmetic. -/
def passesChecks (p : Bytes8) : Prop :=
  p.b4 = 0x0D ∧ p.b3.toNat = (p.b0.toNat + p.b1.toNat + p.b2.toNat) % 256

/-- The output records of the next `k` cycles. -/
def trace : Nat → State → List OutRecord
  | 0, _ => []
  | k + 1, s =>
    match step s with
    | .next s' => output s :: trace k s'
    | .fault _ => []
    | .refused _ => []

/-- The Readings that reach the sink in the next `k` cycles, in emission order (43_pipeline R176). -/
def readings (k : Nat) (s : State) : List Reading :=
  (trace k s).filterMap (·.reading)

/-- The state with these samples, and no others, presented at the ports. -/
def State.presented (s : State) (ins : List PortInput) : State :=
  { s with inputs := ins }

end Sys2Proof.Machine
end

