-- ==== Sys2Proof/Certificates/Slice0/Obligations.lean ====
section
/-! DEFINITION. The statements for the provers. Each docstring names the rules of spec/ it rests on. -/

open Sys2Proof Sys2Proof.Machine

/-! ## Words and decoding -/

/-- Decode and encode agree on every well-formed operation of both formats (30_encoding R72, R75, R78, R82). The words
written with every ignored bit 0 lose no operand bit. -/
def Obligations.DecodeOfEncodeIsTheInstruction : Prop :=
  ∀ i : Instr, i.wellFormed = true → decodeWord (encode i) = i

/-- Every one of the 2^64 plaintext frames is the encoding of exactly the well-formed operation it decodes to: no bit of
a frame is dropped, the unused bytes included (30_encoding R75, R78). -/
def Obligations.EveryFrameIsTheEncodingOfItsOperation : Prop :=
  ∀ w : BitVec 64, encode (decodeFrame w) = .frame w ∧ (decodeFrame w).wellFormed = true

/-- 30_encoding R72: the control word selects the operation in the priority order RESET, CANCEL, UNAVAIL, REPORT, NODATA,
every one of the 16 control words selects one, and while halted every operation but RESET is ignored. -/
def Obligations.ControlWordSelectsTheOperation : Prop :=
  (∀ i : PortInput,
    (i.ctl.getLsbD 3 = true → decodePort i = .reset) ∧
    (i.ctl.getLsbD 3 = false → i.ctl.getLsbD 2 = true → decodePort i = .cancel) ∧
    (i.ctl.getLsbD 3 = false → i.ctl.getLsbD 2 = false → i.ctl.getLsbD 1 = true → decodePort i = .unavail) ∧
    (i.ctl = 0b0001 → decodePort i = .report (unpack i.inData)) ∧
    (i.ctl = 0b0000 → decodePort i = .nodata)) ∧
  ∀ (i : PortInput) (s : State), s.run = .halted → decodePort i ≠ .reset →
    exec (decodePort i) s = .next s ∧ outputOf (decodePort i) s = ⟨.halted, none⟩

/-- 30_encoding R71, 00_scope R14: `raw[i] = in_data[63-8i : 56-8i]`, and `in_data` is ignored by every operation but
`REPORT`. -/
def Obligations.InDataIsReadByReportAlone : Prop :=
  (∀ (w : BitVec 64) (i : Pos), ((unpack w).get i).toNat = (w.toNat / 2 ^ (56 - 8 * i.val)) % 256) ∧
  (∀ d : BitVec 64, decodePort ⟨0b0001, d⟩ = .report (unpack d)) ∧
  ∀ (ctl : BitVec 4) (d d' : BitVec 64), ctl ≠ 0b0001 → decodePort ⟨ctl, d⟩ = decodePort ⟨ctl, d'⟩

/-- 30_encoding R75, R76, R78: the frame-level operation of a frame, by its fields: `VALUE = 256*VH + VL`. -/
def Obligations.FrameFieldsSelectTheOperation : Prop :=
  ∀ p : Bytes8,
    (passesChecks p → p.b0 = 0x50 →
      ∃ v : U16, v.toNat = 256 * p.b1.toNat + p.b2.toNat ∧ decodeFrame (pack p) = .obsCo2 v p.b5 p.b6 p.b7) ∧
    (passesChecks p → p.b0 = 0x42 →
      ∃ v : U16, v.toNat = 256 * p.b1.toNat + p.b2.toNat ∧ decodeFrame (pack p) = .obsTemp v p.b5 p.b6 p.b7) ∧
    (passesChecks p → p.b0 ≠ 0x50 → p.b0 ≠ 0x42 →
      ∃ v : U16, v.toNat = 256 * p.b1.toNat + p.b2.toNat ∧ decodeFrame (pack p) = .obsOther p.b0 v p.b5 p.b6 p.b7) ∧
    (¬ passesChecks p → decodeFrame (pack p) = .badFrame p)

/-- 41_framedecoder R123: whichever check fails, the decoder answers the one error, no field is produced, the report is
discarded and no state changes. -/
def Obligations.EitherFailedCheckDiscardsTheReport : Prop :=
  ∀ p : Bytes8, p.b4 ≠ 0x0D ∨ p.b3.toNat ≠ (p.b0.toNat + p.b1.toNat + p.b2.toNat) % 256 →
    decodeReport p = .error .checksumFailed ∧ decodeFrame (pack p) = .badFrame p ∧
    ∀ (raw : Bytes8) (s : State), s.run = .running → transform s.params raw = p →
      exec (.report raw) s = .next s ∧ outputOf (.report raw) s = ⟨.chkFail, none⟩

/-- Exactly 2^48 of the 2^64 plaintext frames are valid, and the frame map selects BADFRAME for all the others: the
sentence "Of the 2^64 plaintext frames exactly 2^48 are valid" of 30_encoding section 5, an inference the spec marks as
its own. -/
def Obligations.ExactlyTwoToThe48FramesAreValid : Prop :=
  Nat.card { p : Bytes8 // decodeFrame (pack p) ≠ .badFrame p } = 2 ^ 48 ∧ Nat.card Bytes8 = 2 ^ 64

/-- A few words written out from the spec's encoding decode to their operations (30_encoding R72, R78;
95_test_vectors 3.5, 3.6, 3.9). -/
def Obligations.WrittenWordsDecode : Prop :=
  decodeWord (.port ⟨0b1011, 5⟩) = .reset ∧
  decodeWord (.port ⟨0b0111, 5⟩) = .cancel ∧
  decodeWord (.port ⟨0b0011, 5⟩) = .unavail ∧
  decodeWord (.port ⟨0b0001, 0x2FC53B5965E2F56D⟩) = .report ⟨0x2F, 0xC5, 0x3B, 0x59, 0x65, 0xE2, 0xF5, 0x6D⟩ ∧
  decodeWord (.port ⟨0b0000, 5⟩) = .nodata ∧
  decodeWord (.frame 0x500190E10DAABBCC) = .obsCo2 400 0xAA 0xBB 0xCC ∧
  decodeWord (.frame 0x42118DE00D000000) = .obsTemp 4493 0 0 0 ∧
  decodeWord (.frame 0x411234870D000000) = .obsOther 0x41 0x1234 0 0 0 ∧
  decodeWord (.frame 0x500190E20D000000) = .badFrame ⟨0x50, 0x01, 0x90, 0xE2, 0x0D, 0, 0, 0⟩

/-! ## The Transform -/

/-- 40_transform R101: the scatter `u[SHUFFLE[i]] = raw[i]` for every permutation; every position is written exactly once
and the order of the assignments does not matter; the identity changes nothing; the gather is another function unless
`SHUFFLE` is its own inverse; a `SHUFFLE` that is no permutation is
refused at configuration time. -/
def Obligations.UnshuffleScattersByShuffle : Prop :=
  (∀ (sh : Shuffle) (raw : Bytes8),
    (∀ i : Pos, (unshuffle sh raw).get (sh.pos.get i) = raw.get i) ∧
    (∀ j : Pos, ∃! i : Pos, sh.pos.get i = j) ∧
    (∀ (order : List Pos) (u0 : Bytes8), order.Perm positions →
      order.foldl (fun u i => u.set (sh.pos.get i) (raw.get i)) u0 = unshuffle sh raw) ∧
    ((∀ i : Pos, sh.pos.get i = i) → unshuffle sh raw = raw)) ∧
  (∀ sh : Shuffle, (∀ raw : Bytes8, unshuffle sh raw = gather sh raw) ↔ ∀ i : Pos, sh.pos.get (sh.pos.get i) = i) ∧
  ∀ pos : Oct Pos, Shuffle.ofPositions? pos = none ↔ ∃ i j : Pos, i ≠ j ∧ pos.get i = pos.get j

/-- 40_transform R102: `x[i] = u[i] ^ KEY[i]`, so that the key itself gives zero and a zero key changes nothing. That `u`
is the unshuffled sequence is said by PlaintextByteDependsOnTwoRawBytes, through the whole of `transform`. -/
def Obligations.XorKeyIsByteWise : Prop :=
  ∀ (key u : Bytes8) (i : Pos),
    (xorKey key u).get i = u.get i ^^^ key.get i ∧ (xorKey key key).get i = 0 ∧ (key.get i = 0 → (xorKey key u).get i = u.get i)

/-- 40_transform R103: `m[i] = ((x[i] >> 3) | (x[(i-1) mod 8] << 5)) & 0xFF` on unbounded integers, the OR of the two
parts is their sum, and the bits are `m[i][4:0] = x[i][7:3]`, `m[i][7:5] = x[(i-1) mod 8][2:0]`. -/
def Obligations.RotMixCombinesWithThePreviousByte : Prop :=
  ∀ (x : Bytes8) (i j : Pos), j.val = (i.val + 7) % 8 →
    ((rotMix x).get i).toNat = (((x.get i).toNat >>> 3) ||| ((x.get j).toNat <<< 5)) &&& 0xFF ∧
    ((rotMix x).get i).toNat = (x.get i).toNat / 8 + ((x.get j).toNat % 8) * 32 ∧
    ((rotMix x).get i).extractLsb' 0 5 = (x.get i).extractLsb' 3 5 ∧
    ((rotMix x).get i).extractLsb' 5 3 = (x.get j).extractLsb' 0 3

/-- 40_transform R104: `ns[i] = ((CSTATE[i] >> 4) | (CSTATE[i] << 4)) & 0xFF`, and the swap applied twice is the
identity. -/
def Obligations.NibSwapSwapsNibbles : Prop :=
  ∀ (c : Bytes8) (i : Pos),
    ((nibSwap c).get i).toNat = (((c.get i).toNat >>> 4) ||| ((c.get i).toNat <<< 4)) &&& 0xFF ∧
    ((nibSwap c).get i).toNat = (c.get i).toNat / 16 + ((c.get i).toNat % 16) * 16 ∧
    nibSwap (nibSwap c) = c

/-- 40_transform R105: `p[i] = (256 + m[i] - ns[i]) mod 256`, which is `(m[i] - ns[i]) mod 256` on integers. -/
def Obligations.ModSubSubtractsModulo256 : Prop :=
  ∀ (m ns : Bytes8) (i : Pos),
    ((modSub m ns).get i).toNat = (256 + (m.get i).toNat - (ns.get i).toNat) % 256 ∧
    (((modSub m ns).get i).toNat : Int) = ((m.get i).toNat - (ns.get i).toNat : Int) % 256 ∧
    (modSub m ns).get i = m.get i - ns.get i

/-- ROTMIX is the rotate right by 3 of the packed word: 40_transform section 3, rule R107, an inference the spec marks as
its own. -/
def Obligations.RotMixIsRotateRightByThree : Prop :=
  ∀ x : Bytes8, pack (rotMix x) = (pack x >>> 3) ||| (pack x <<< 61) ∧ pack (rotMix x) = (pack x).rotateRight 3

/-- The wire level decodes and encodes: 40_transform section 3, rule R108, an inference the spec marks as its own. Under
every `KEY`, `CSTATE` and permutation `SHUFFLE`, TRANSFORM is a bijection and INVERSE is its inverse on both sides. -/
def Obligations.TransformIsABijection : Prop :=
  ∀ c : Params,
    (∀ p : Bytes8, transform c (inverse c p) = p) ∧ (∀ raw : Bytes8, inverse c (transform c raw) = raw) ∧
    Function.Bijective (transform c)

/-- 40_transform section 3, rule R111, an inference the spec marks as its own: the closed form of a plaintext byte, and
how far one raw byte reaches: `raw[k]` with `j = SHUFFLE[k]` reaches `p[j]` through its upper five bits and `p[(j+1) mod
8]` through its lower three, and no other byte. -/
def Obligations.PlaintextByteDependsOnTwoRawBytes : Prop :=
  (∀ (c : Params) (raw : Bytes8) (i a b : Pos), c.shuffle.pos.get a = i → c.shuffle.pos.get b = i - 1 →
    (transform c raw).get i =
      (((raw.get a ^^^ c.key.get i) >>> 3) ||| ((raw.get b ^^^ c.key.get (i - 1)) <<< 5)) - (nibSwap c.cstate).get i) ∧
  ∀ (c : Params) (raw raw' : Bytes8) (k : Pos), (∀ i : Pos, i ≠ k → raw.get i = raw'.get i) →
    (∀ i : Pos, i ≠ c.shuffle.pos.get k → i ≠ c.shuffle.pos.get k + 1 → (transform c raw).get i = (transform c raw').get i) ∧
    ((raw.get k).extractLsb' 3 5 = (raw'.get k).extractLsb' 3 5 →
      (transform c raw).get (c.shuffle.pos.get k) = (transform c raw').get (c.shuffle.pos.get k)) ∧
    ((raw.get k).extractLsb' 0 3 = (raw'.get k).extractLsb' 0 3 →
      (transform c raw).get (c.shuffle.pos.get k + 1) = (transform c raw').get (c.shuffle.pos.get k + 1))

/-! ## The FrameDecoder -/

/-- 41_framedecoder R130 and R124: a frame that fails a check yields `ChecksumFailed` and no field; every other frame
yields the field of its first three bytes, big-endian. -/
def Obligations.DecoderAcceptsExactlyTheValidFrames : Prop :=
  ∀ p : Bytes8,
    (p.b4 ≠ 0x0D ∨ p.b3.toNat ≠ (p.b0.toNat + p.b1.toNat + p.b2.toNat) % 256 →
      decodeReport p = .error .checksumFailed) ∧
    (p.b4 = 0x0D → p.b3.toNat = (p.b0.toNat + p.b1.toNat + p.b2.toNat) % 256 →
      ∃ v : U16, v.toNat = 256 * p.b1.toNat + p.b2.toNat ∧ decodeReport p = .ok ⟨p.b0, v⟩)

/-- 41_framedecoder R125: two frames that differ only in bytes 5 to 7 decode identically. That they also run identically
holds in a halted block by the model's reading of a frame-level operation there (DEDUCED, log 9). -/
def Obligations.UnusedFrameBytesAreIgnored : Prop :=
  ∀ (p : Bytes8) (u5 u6 u7 : Byte),
    decodeReport { p with b5 := u5, b6 := u6, b7 := u7 } = decodeReport p ∧
    ∀ s : State,
      exec (decodeFrame (pack { p with b5 := u5, b6 := u6, b7 := u7 })) s = exec (decodeFrame (pack p)) s ∧
      outputOf (decodeFrame (pack { p with b5 := u5, b6 := u6, b7 := u7 })) s = outputOf (decodeFrame (pack p)) s

/-- 30_encoding R77: the checksum is the sum of `CODE`, `VH`, `VL` reduced modulo 256, a sum of at most 765, and no other
byte of the frame takes part. -/
def Obligations.ChecksumCoversThreeBytes : Prop :=
  ∀ p : Bytes8,
    (chkSum p = true ↔ p.b3.toNat = (p.b0.toNat + p.b1.toNat + p.b2.toNat) % 256) ∧
    p.b0.toNat + p.b1.toNat + p.b2.toNat ≤ 765 ∧
    ∀ t u5 u6 u7 : Byte, chkSum { p with b4 := t, b5 := u5, b6 := u6, b7 := u7 } = chkSum p

/-! ## The cycle -/

/-- A step takes the next sample of the pins, one a cycle, and runs the operation it decodes to, and the cycle shows
that operation's output record (43_pipeline R170, 20_memory R56). With nothing presented the operation is NODATA: that
clause is the model's choice, log 2. -/
def Obligations.StepRunsTheDecodedOperation : Prop :=
  ∀ s : State,
    (∀ (i : PortInput) (rest : List PortInput), s.inputs = i :: rest →
      step s = exec (decodeWord (.port i)) { s with inputs := rest } ∧
      output s = outputOf (decodeWord (.port i)) { s with inputs := rest }) ∧
    (s.inputs = [] → step s = exec .nodata s ∧ output s = outputOf .nodata s) ∧
    ∀ t : State, step s = .next t → t.inputs = s.inputs.tail

/-- 43_pipeline R172 against 30_encoding R78: a REPORT cycle performs the frame-level operation that the opcode table
selects for the plaintext frame. A halted block ignores the REPORT (60_exceptions section 2); that a frame-level
operation is ignored there too is the model's reading (DEDUCED, log 9). -/
def Obligations.ReportRunsItsFrameOperation : Prop :=
  ∀ (raw : Bytes8) (s : State),
    exec (.report raw) s = exec (decodeFrame (pack (transform s.params raw))) s ∧
    outputOf (.report raw) s = outputOf (decodeFrame (pack (transform s.params raw))) s

/-- A numbered word of the opcode table that is presented runs as the instruction it decodes to, under every parameter
value; a frame-level word goes out through INVERSE and comes back through TRANSFORM (30_encoding R82, 40_transform R108;
the numbering is the model's, log 10). In a halted block the equation for a frame-level word rests on
the model's reading of that level there (DEDUCED, log 9). -/
def Obligations.PresentedTableWordRunsAsItsInstruction : Prop :=
  ∀ (s : State) (nbits w : Nat) (i : Instr), decodeTableWord nbits w = some i →
    step (s.withFetchWord nbits w) = exec i s ∧ output (s.withFetchWord nbits w) = outputOf i s

/-- The block is total: every operation completes in every state (43_pipeline R179, 60_exceptions R193, R198). That a
frame-level operation completes in a halted block too is the model's reading (DEDUCED, log 9). -/
def Obligations.EveryOperationCompletes : Prop :=
  (∀ (i : Instr) (s : State), ∃ t, exec i s = .next t) ∧ ∀ s : State, ∃ t, step s = .next t

/-- 43_pipeline R171: NODATA in a running block changes nothing and reports ST_NODATA, whatever `in_data` is. -/
def Obligations.NodataIsANoOp : Prop :=
  (∀ s : State, s.run = .running → exec .nodata s = .next s ∧ outputOf .nodata s = ⟨.noData, none⟩) ∧
  ∀ d : BitVec 64, decodePort ⟨0b0000, d⟩ = .nodata

/-- 43_pipeline R173, 60_exceptions R192: UNAVAIL changes nothing and reports SourceUnavailable, whatever `in_valid` and
`in_data` are. -/
def Obligations.UnavailReportsAndKeepsTheState : Prop :=
  (∀ s : State, s.run = .running → exec .unavail s = .next s ∧ outputOf .unavail s = ⟨.unavail, none⟩) ∧
  ∀ d : BitVec 64, decodePort ⟨0b0010, d⟩ = .unavail ∧ decodePort ⟨0b0011, d⟩ = .unavail

/-- 60_exceptions R195: CANCEL halts a running block and emits nothing, whatever the other poll inputs are; a halted
block ignores every operation but RESET, CANCEL included, and answers ST_HALTED. Nothing is said of VAL, LE_CO2, LE_TEMP
after the halt: they are no longer defined (log 6). That a halted block ignores a frame-level operation as it ignores the
REPORT which carries it is the model's reading (DEDUCED, log 9). -/
def Obligations.CancelHaltsTheBlock : Prop :=
  (∀ s : State, s.run = .running →
    outputOf .cancel s = ⟨.halted, none⟩ ∧
    ∃ t, exec .cancel s = .next t ∧ t.run = .halted ∧ t.params = s.params ∧ t.inputs = s.inputs) ∧
  (∀ (i : Instr) (s : State), s.run = .halted → i ≠ .reset →
    exec i s = .next s ∧ outputOf i s = ⟨.halted, none⟩) ∧
  ∀ (polls : BitVec 2) (d : BitVec 64), decodePort ⟨0b01#2 ++ polls, d⟩ = .cancel

/-- 70_reset_and_hazards R220, 10_state R36: RESET installs the reset state in either run state, has priority over every
other input, keeps the parameters, and twice is the same as once. The model's own fields stay: what is presented (log 1)
and the count of halts (log 6). -/
def Obligations.ResetInstallsTheResetState : Prop :=
  (∀ s : State, exec .reset s =
    .next { s with run := .running, val := [], leCo2 := none, leTemp := none } ∧
    outputOf .reset s = ⟨.reset, none⟩) ∧
  (∀ (s t : State) (c : Byte), exec .reset s = .next t → t.val.read c = none ∧ phase t = .idle ∧ exec .reset t = .next t) ∧
  ∀ (ctl : BitVec 3) (d : BitVec 64), decodePort ⟨1#1 ++ ctl, d⟩ = .reset

/-- 10_state R36: the values after reset; the parameters are not changed by reset. That KEY holds its default at
State.reset is the model's reading (DEDUCED, log 4): 00_scope R8 gives a default and no value after reset. Nothing is
said of the values of CSTATE and SHUFFLE, which are open (log 5). -/
def Obligations.ResetStateHoldsTheSpecValues : Prop :=
  State.reset.run = .running ∧ (∀ c : Byte, State.reset.val.read c = none) ∧ State.reset.leCo2 = none ∧
  State.reset.leTemp = none ∧ phase State.reset = .idle ∧
  State.reset.params.key = ⟨0xC4, 0xC6, 0xC0, 0x92, 0x40, 0x23, 0xDC, 0x96⟩ ∧
  ∀ s t : State, exec .reset s = .next t → t.params = s.params

/-- 41_framedecoder R129, 60_exceptions R191: every frame that fails a check is BADFRAME; it raises ChecksumFailed and
keeps no byte of the frame. -/
def Obligations.BadFrameChangesNothing : Prop :=
  (∀ p : Bytes8, ¬ passesChecks p → decodeFrame (pack p) = .badFrame p) ∧
  ∀ (p : Bytes8) (s : State), s.run = .running →
    exec (.badFrame p) s = .next s ∧ outputOf (.badFrame p) s = ⟨.chkFail, none⟩

/-- 42_aggregator R160, R145, R146, R147: a CO2 field that is the first or differs from the last emitted value is stored
and emitted with the last known temperature; any other CO2 field is stored only. The phase is Active afterwards, and from
Idle the field always emits, given INV1 and INV3 of 10_state R37. -/
def Obligations.Co2FieldEmitsWhenNewOrChanged : Prop :=
  ∀ (s : State) (v : U16) (u5 u6 u7 : Byte), s.run = .running →
    (s.leCo2 ≠ some v → ∃ r : Reading,
      exec (.obsCo2 v u5 u6 u7) s =
        .next { s with val := s.val.write 0x50 v, leCo2 := some v, leTemp := s.val.read 0x42 } ∧
      outputOf (.obsCo2 v u5 u6 u7) s = ⟨.emit, some r⟩ ∧
      r.co2 = v ∧
      (s.val.read 0x42 = none → r.tempValid = false ∧ r.tempT80 = 0) ∧
      ∀ tv : U16, s.val.read 0x42 = some tv → r.tempValid = true ∧ r.tempT80 = 5 * (tv.toNat : Int) - 21852) ∧
    (s.leCo2 = some v →
      exec (.obsCo2 v u5 u6 u7) s = .next { s with val := s.val.write 0x50 v } ∧
      outputOf (.obsCo2 v u5 u6 u7) s = ⟨.stored, none⟩) ∧
    (∀ t : State, exec (.obsCo2 v u5 u6 u7) s = .next t → phase t = .active) ∧
    (s.aggregatorInv = true → phase s = .idle → (outputOf (.obsCo2 v u5 u6 u7) s).status = .emit)

/-- 42_aggregator R161: a temperature field is stored raw and emits nothing; the phase stays; a CO2 field with a new
value that follows is emitted with it. -/
def Obligations.TemperatureFieldIsStoredOnly : Prop :=
  ∀ (s : State) (v : U16) (u5 u6 u7 : Byte), s.run = .running →
    exec (.obsTemp v u5 u6 u7) s = .next { s with val := s.val.write 0x42 v } ∧
    outputOf (.obsTemp v u5 u6 u7) s = ⟨.stored, none⟩ ∧
    ∀ t : State, exec (.obsTemp v u5 u6 u7) s = .next t →
      phase t = phase s ∧
      ∀ w : U16, s.leCo2 ≠ some w →
        outputOf (.obsCo2 w u5 u6 u7) t = ⟨.emit, some ⟨w, true, 5 * (v.toNat : Int) - 21852⟩⟩

/-- 42_aggregator R162, R154: a field of any other code is stored and emits nothing. -/
def Obligations.UnknownFieldIsStoredOnly : Prop :=
  ∀ (s : State) (code : Byte) (v : U16) (u5 u6 u7 : Byte), s.run = .running → code ≠ 0x50 → code ≠ 0x42 →
    exec (.obsOther code v u5 u6 u7) s = .next { s with val := s.val.write code v } ∧
    outputOf (.obsOther code v u5 u6 u7) s = ⟨.stored, none⟩

/-- 42_aggregator R141, 20_memory R51: an observed field writes its own entry of VAL and no other; the run flag, the
parameters and what is presented stay. -/
def Obligations.ObservedFieldWritesOneEntry : Prop :=
  ∀ (s : State) (code : Byte) (v : U16) (u5 u6 u7 : Byte) (i : Instr), s.run = .running →
    (code = 0x50 ∧ i = .obsCo2 v u5 u6 u7) ∨ (code = 0x42 ∧ i = .obsTemp v u5 u6 u7) ∨
      (code ≠ 0x50 ∧ code ≠ 0x42 ∧ i = .obsOther code v u5 u6 u7) →
    ∃ t, exec i s = .next t ∧ t.val.read code = some v ∧ (∀ c : Byte, c ≠ code → t.val.read c = s.val.read c) ∧
      t.run = s.run ∧ t.params = s.params ∧ t.inputs = s.inputs ∧ t.halts = s.halts

/-- 43_pipeline section 5, the REPORT clauses of STEP in rule R179, which the spec derives from the rules it names, with
the transform, the checks and the value in place. -/
def Obligations.ReportCycleFollowsTheStepFunction : Prop :=
  ∀ (raw p : Bytes8) (s : State), s.run = .running → transform s.params raw = p →
    (¬ passesChecks p → exec (.report raw) s = .next s ∧ outputOf (.report raw) s = ⟨.chkFail, none⟩) ∧
    ∀ v : U16, passesChecks p → v.toNat = 256 * p.b1.toNat + p.b2.toNat →
      ((p.b0 = 0x50 ∧ s.leCo2 ≠ some v) →
        exec (.report raw) s =
          .next { s with val := s.val.write p.b0 v, leCo2 := some v, leTemp := (s.val.write p.b0 v).read 0x42 } ∧
        outputOf (.report raw) s = ⟨.emit, some (buildReading v ((s.val.write p.b0 v).read 0x42))⟩) ∧
      (¬ (p.b0 = 0x50 ∧ s.leCo2 ≠ some v) →
        exec (.report raw) s = .next { s with val := s.val.write p.b0 v } ∧
        outputOf (.report raw) s = ⟨.stored, none⟩)

/-! ## Temperature and outputs -/

/-- 42_aggregator R143, R155: T80 is the temperature in units of 1/80 degree, exactly; it fits 20 bits; no raw value is
exactly 0 degrees. -/
def Obligations.TemperatureConversionIsExact : Prop :=
  ∀ v : U16,
    (tconv v : ℚ) / 80 = (v.toNat : ℚ) / 16 - 27315 / 100 ∧ -21852 ≤ tconv v ∧ tconv v ≤ 305823 ∧
    (BitVec.ofInt 20 (tconv v)).toInt = tconv v ∧ tconv v ≠ 0

/-- 42_aggregator R144: the rounded tenth is the nearest one, an exact half occurs exactly when `v mod 8 = 0`, and only
then does the result depend on TIE. It holds for every TIE, the open one too (log 7). -/
def Obligations.RoundedTenthIsNearest : Prop :=
  ∀ (tie : Int → Bool) (v : U16),
    (tconv v % 8 = 4 ↔ v.toNat % 8 = 0) ∧
    (v.toNat % 8 ≠ 0 →
      -4 < 8 * round1 tie (tconv v) - tconv v ∧ 8 * round1 tie (tconv v) - tconv v < 4 ∧
      ∀ tie', round1 tie' (tconv v) = round1 tie (tconv v)) ∧
    (v.toNat % 8 = 0 →
      round1 tie (tconv v) = if tie (tconv v / 8) then tconv v / 8 + 1 else tconv v / 8)

/-- 43_pipeline R174: the status codes and the cycles that answer them; after every operation `out_valid` is 1 exactly
for ST_EMIT, and then the pins carry the Reading, the temperature in two's complement; with `out_valid = 0` the data
pins are 0; 7 is never produced. That a frame-level operation answers ST_HALTED in a halted block, as the REPORT which
carries it does, is the model's reading (DEDUCED, log 9). -/
def Obligations.OutputPinsFollowTheStatus : Prop :=
  (Status.noData.code = 0 ∧ Status.stored.code = 1 ∧ Status.emit.code = 2 ∧ Status.chkFail.code = 3 ∧
    Status.unavail.code = 4 ∧ Status.halted.code = 5 ∧ Status.reset.code = 6) ∧
  (∀ (i : Instr) (s : State),
    ((outputOf i s).status = .reset ↔ i = .reset) ∧
    ((outputOf i s).status = .halted ↔ i ≠ .reset ∧ (s.run = .halted ∨ i = .cancel)) ∧
    (s.run = .running → ((outputOf i s).status = .noData ↔ i = .nodata) ∧ ((outputOf i s).status = .unavail ↔ i = .unavail) ∧
      ∀ raw : Bytes8, i = .report raw →
        ((outputOf i s).status = .chkFail ↔ ¬ passesChecks (transform s.params raw)) ∧
        ((outputOf i s).status = .stored ↔ passesChecks (transform s.params raw) ∧ (outputOf i s).reading = none) ∧
        ((outputOf i s).status = .emit → (transform s.params raw).b0 = 0x50))) ∧
  ∀ (i : Instr) (s : State),
    (outputOf i s).pins.status = (outputOf i s).status.code ∧ (outputOf i s).pins.status ≠ 7 ∧
    ((outputOf i s).pins.outValid = 1 ↔ (outputOf i s).status = .emit) ∧
    ((outputOf i s).pins.outValid = 0 →
      (outputOf i s).reading = none ∧ (outputOf i s).pins.outCo2 = 0 ∧ (outputOf i s).pins.outTempValid = 0 ∧ (outputOf i s).pins.outT80 = 0) ∧
    ((outputOf i s).pins.outValid = 1 → ∃ r : Reading, (outputOf i s).reading = some r ∧
      (outputOf i s).pins.outCo2 = r.co2 ∧ (outputOf i s).pins.outT80.toInt = r.tempT80 ∧ ((outputOf i s).pins.outTempValid = 1 ↔ r.tempValid = true))

/-! ## Whole-machine rules -/

/-- 60_exceptions section 3, rule R197, an inference the spec marks as its own: an error is precise: a cycle that reports
one leaves the whole state as it was and shows no Reading. -/
def Obligations.ErrorCyclesArePrecise : Prop :=
  ∀ (i : Instr) (s : State), (outputOf i s).status = .chkFail ∨ (outputOf i s).status = .unavail →
    exec i s = .next s ∧ (outputOf i s).reading = none

/-- 42_aggregator R148, R160: a Reading is emitted only by a running block, in a cycle whose report is a valid CO2 frame,
with that frame's VALUE, which the last emitted value was not. -/
def Obligations.OnlyANewCo2FrameEmits : Prop :=
  ∀ (s t : State) (r : Reading), step s = .next t → (output s).reading = some r →
    s.run = .running ∧ s.leCo2 ≠ some r.co2 ∧ t.leCo2 = some r.co2 ∧ t.leTemp = s.val.read 0x42 ∧
    ∃ (raw p : Bytes8), nextOp s = .report raw ∧ transform s.params raw = p ∧ passesChecks p ∧ p.b0 = 0x50 ∧
      r.co2.toNat = 256 * p.b1.toNat + p.b2.toNat

/-- 10_state R22, R23, R35: a poll cycle that emits no Reading leaves LE_CO2 and LE_TEMP as they were. -/
def Obligations.LastEmittedChangesOnlyByEmission : Prop :=
  ∀ s t : State, step s = .next t → nextOp s ≠ .reset → nextOp s ≠ .cancel → (output s).reading = none →
    t.leCo2 = s.leCo2 ∧ t.leTemp = s.leTemp

/-- 42_aggregator section 4, rule R157, an inference the spec marks as its own: in every state with INV1 and INV3 of
10_state R37, the gated and the literal emission condition agree after STORE, for every code. -/
def Obligations.GatedAndLiteralConditionsAgree : Prop :=
  ∀ (s : State) (code : Byte) (v : U16), s.run = .running → s.aggregatorInv = true →
    condB (store code v s) = emitCond code v (store code v s)

/-- Every step keeps the invariant. Its parts INV1 and INV3 are 10_state section 7, rule R37, an inference the spec
marks as its own; its part that the field table is a strictly rising list is the model's choice (DESIGN CHOICE, log 8).
-/
def Obligations.EveryStepKeepsTheInvariant : Prop :=
  ∀ s t : State, s.inv = true → step s = .next t → t.inv = true

/-- The reset state has the invariant that every step keeps. Its parts INV1 and INV3 are 10_state section 7, rule R37,
an inference the spec marks as its own; its part that the field table is a strictly rising list is the model's choice
(DESIGN CHOICE, log 8). -/
def Obligations.ResetStateHasTheInvariant : Prop :=
  State.reset.inv = true

/-- 10_state section 7, INV4 of rule R37, an inference the spec marks as its own: no entry of VAL goes from present back
to absent but by RESET or CANCEL. -/
def Obligations.NoEntryDisappears : Prop :=
  ∀ (s t : State) (c : Byte), step s = .next t → nextOp s ≠ .reset → nextOp s ≠ .cancel →
    (s.val.read c).isSome = true → (t.val.read c).isSome = true

/-- 70_reset_and_hazards R223: one `KEY`, one `CSTATE` and one `SHUFFLE` over any number of cycles, RESET and halt
included. -/
def Obligations.ParametersStayOverEveryRun : Prop :=
  ∀ (k : Nat) (s : State), ∃ t, Sys2Proof.core.run k s = .next t ∧ t.params = s.params

/-- 10_state R24, 60_exceptions R195: only RESET leaves Halted, and only CANCEL enters it. -/
def Obligations.OnlyCancelHaltsAndOnlyResetResumes : Prop :=
  ∀ s t : State, step s = .next t →
    (s.run = .halted → (t.run = .running ↔ nextOp s = .reset)) ∧
    (s.run = .running → (t.run = .halted ↔ nextOp s = .cancel))

/-- 42_aggregator R150: the transition table of the two phases, for a running block with INV1 and INV3 of 10_state R37.
-/
def Obligations.PhaseTransitionsFollowTheTable : Prop :=
  ∀ (s t : State) (i : Instr), s.run = .running → s.aggregatorInv = true → i.wellFormed = true → exec i s = .next t →
    (∀ (v : U16) (u5 u6 u7 : Byte), i = .obsCo2 v u5 u6 u7 →
      phase t = .active ∧ t.leCo2 = some v ∧ (phase s = .idle → (outputOf i s).status = .emit) ∧
      ((outputOf i s).status = .emit ↔ s.leCo2 ≠ some v)) ∧
    ((∃ v u5 u6 u7, i = .obsTemp v u5 u6 u7) ∨ (∃ c v u5 u6 u7, i = .obsOther c v u5 u6 u7) →
      phase t = phase s ∧ t.leCo2 = s.leCo2 ∧ outputOf i s = ⟨.stored, none⟩) ∧
    ((∃ p, i = .badFrame p) ∨ i = .nodata ∨ i = .unavail → phase t = phase s ∧ t.val = s.val ∧ t.leCo2 = s.leCo2)

/-! ## Runs -/

/-- 42_aggregator R152: of CO2 fields that carry the same value, the first emits when it differs from the last emitted
value and no other does, whatever temperatures, unknown fields, invalid frames, empty polls and outages lie between. -/
def Obligations.RepeatedCo2ValueEmitsOnce : Prop :=
  ∀ (s : State) (v : U16), s.run = .running →
    (∀ ins : List PortInput, (∀ i ∈ ins, isPoll i = true) → co2Only s.params v ins → s.leCo2 = some v →
      readings ins.length (s.presented ins) = []) ∧
    ∀ (pre post : List PortInput) (i : PortInput), (∀ j ∈ pre ++ i :: post, isPoll j = true) →
      noCo2 s.params pre → fieldOf s.params i = some ⟨0x50, v⟩ → co2Only s.params v post → s.leCo2 ≠ some v →
      readings pre.length (s.presented (pre ++ i :: post)) = [] ∧
      ∃ r : Reading, r.co2 = v ∧ readings (pre.length + 1) (s.presented (pre ++ i :: post)) = [r] ∧
        readings (pre ++ i :: post).length (s.presented (pre ++ i :: post)) = [r]

/-- 42_aggregator R145, R146 (95_test_vectors Q8): with no RESET among the samples, no two consecutive Readings carry the
same CO2 value, and the first differs from the last emitted value. -/
def Obligations.ConsecutiveReadingsDiffer : Prop :=
  ∀ (s : State) (ins : List PortInput), (∀ i ∈ ins, decodePort i ≠ .reset) →
    List.IsChain (· ≠ ·) (s.leCo2 :: (readings ins.length (s.presented ins)).map fun r => some r.co2)

/-- 70_reset_and_hazards R228, 42_aggregator R152 (95_test_vectors Q10): invalid frames, empty polls and outages do not
change the sequence of Readings. -/
def Obligations.NoiseDoesNotChangeTheReadings : Prop :=
  ∀ (s : State) (ins kept : List PortInput), s.run = .running → (∀ i ∈ ins, isPoll i = true) →
    kept = ins.filter (fun i => (fieldOf s.params i).isSome) →
    readings ins.length (s.presented ins) = readings kept.length (s.presented kept)

/-- 10_state R21: after any polls, entry `c` of VAL is the value of the most recent valid field with code `c`, or what it
was. -/
def Obligations.TableHoldsTheLatestField : Prop :=
  ∀ (s t : State) (ins : List PortInput) (c : Byte), s.run = .running → (∀ i ∈ ins, isPoll i = true) →
    Sys2Proof.core.run ins.length (s.presented ins) = .next t →
    t.val.read c = (latestValue c (fieldsOf s.params ins)).or (s.val.read c)

/-- 10_state sections 2 and 7 (R22, INV2): after any polls LE_CO2 is the CO2 value of the last emitted Reading, or what
it was; so from a reset block it is unset exactly when no Reading was emitted. -/
def Obligations.LastEmittedCo2IsTheLastReading : Prop :=
  ∀ (s t : State) (ins : List PortInput), s.run = .running → (∀ i ∈ ins, isPoll i = true) →
    Sys2Proof.core.run ins.length (s.presented ins) = .next t →
    t.leCo2 = ((readings ins.length (s.presented ins)).getLast?.map (·.co2)).or s.leCo2 ∧
    (s.leCo2 = none → (t.leCo2 = none ↔ readings ins.length (s.presented ins) = []))

/-- 42_aggregator R146, R147, R149: the temperature of a Reading is the latest one delivered before its cycle, however
old; with none ever observed it is unset and 0. -/
def Obligations.ReadingCarriesTheLatestTemperature : Prop :=
  ∀ (s t : State) (pre : List PortInput) (i : PortInput) (r : Reading), s.run = .running →
    (∀ j ∈ pre, isPoll j = true) →
    Sys2Proof.core.run pre.length (s.presented (pre ++ [i])) = .next t → (output t).reading = some r →
    match (latestValue 0x42 (fieldsOf s.params pre)).or (s.val.read 0x42) with
    | some v => r.tempValid = true ∧ r.tempT80 = 5 * (v.toNat : Int) - 21852
    | none => r.tempValid = false ∧ r.tempT80 = 0

/-- 10_state section 8, rule R38, an inference the spec marks as its own, and 60_exceptions section 2: what a run shows
depends on the run flag, the parameters, the samples and, while running, on LE_CO2 and VAL[0x42] alone. LE_TEMP, every
other entry and the whole aggregator of a halted block are never read. -/
def Obligations.OutputsDependOnWhatIsRead : Prop :=
  ∀ (k : Nat) (s s' : State), s.run = s'.run → s.params = s'.params → s.inputs = s'.inputs →
    (s.run = .running → s.leCo2 = s'.leCo2 ∧ s.val.read 0x42 = s'.val.read 0x42) →
    trace k s = trace k s'

/-- 70_reset_and_hazards R220: everything the aggregator knew is lost at RESET: two blocks with the same parameters and
the same samples ahead show the same outputs from then on, halted or not before. -/
def Obligations.ResetForgetsThePast : Prop :=
  ∀ (k : Nat) (s s' t t' : State), s.params = s'.params → s.inputs = s'.inputs →
    exec .reset s = .next t → exec .reset s' = .next t' → trace k t = trace k t'
end

