-- ==== Sys2Proof/Laws/Memory.lean ====
section
/-! SUPPORT. The field table: what a read sees after a write, and that every operation keeps the canonical form. -/

namespace Sys2Proof.Machine

@[simp] theorem Memory.read_nil (c : Byte) : Memory.read [] c = none := rfl

theorem Memory.read_write_same (m : Memory) (c : Byte) (v : U16) : (m.write c v).read c = some v := by
  induction m with
  | nil => simp [Memory.write, Memory.read]
  | cons cell rest ih =>
    obtain ⟨k, w⟩ := cell
    simp only [Memory.write]
    split
    · simp [Memory.read]
    · split
      · simp [Memory.read]
      · next hk => simp [Memory.read, Ne.symm hk, ih]

theorem Memory.read_write_other (m : Memory) (c d : Byte) (v : U16) (h : d ≠ c) : (m.write c v).read d = m.read d := by
  have hn : c.toNat ≠ d.toNat := fun e => h (BitVec.eq_of_toNat_eq e.symm)
  induction m with
  | nil => simp [Memory.write, Memory.read, hn]
  | cons cell rest ih =>
    obtain ⟨k, w⟩ := cell
    simp only [Memory.write]
    split
    · simp [Memory.read, hn]
    · split
      · next hk => simp [Memory.read, ← hk, hn]
      · simp [Memory.read, ih]

/-- Once: what a read sees after a write (20_memory R51). -/
theorem Memory.read_write (m : Memory) (c d : Byte) (v : U16) :
    (m.write c v).read d = if d = c then some v else m.read d := by
  split
  · next h => rw [h, Memory.read_write_same]
  · next h => exact Memory.read_write_other m c d v h

theorem Memory.risingFrom_mono {lo lo' : Nat} (h : lo ≤ lo') {m : Memory} (hm : Memory.risingFrom lo' m = true) :
    Memory.risingFrom lo m = true := by
  cases m with
  | nil => rfl
  | cons cell rest =>
    obtain ⟨k, w⟩ := cell
    simp only [Memory.risingFrom, Bool.and_eq_true, decide_eq_true_eq] at hm ⊢
    exact ⟨⟨Nat.le_trans h hm.1.1, hm.1.2⟩, hm.2⟩

theorem Memory.risingFrom_write (m : Memory) (lo : Nat) (c : Byte) (v : U16) (hm : Memory.risingFrom lo m = true)
    (hlo : lo ≤ c.toNat) : Memory.risingFrom lo (m.write c v) = true := by
  have hc := c.isLt
  induction m generalizing lo with
  | nil => simp [Memory.write, Memory.risingFrom, hlo, hc]
  | cons cell rest ih =>
    obtain ⟨k, w⟩ := cell
    simp only [Memory.risingFrom, Bool.and_eq_true, decide_eq_true_eq] at hm
    simp only [Memory.write]
    split
    · next h =>
      simp only [Memory.risingFrom, Bool.and_eq_true, decide_eq_true_eq]
      exact ⟨⟨hlo, hc⟩, ⟨h, hm.1.2⟩, hm.2⟩
    · split
      · next h =>
        simp only [Memory.risingFrom, Bool.and_eq_true, decide_eq_true_eq]
        exact ⟨⟨hlo, hc⟩, h ▸ hm.2⟩
      · next h1 h2 =>
        simp only [Memory.risingFrom, Bool.and_eq_true, decide_eq_true_eq]
        exact ⟨hm.1, ih (k + 1) hm.2 (by omega)⟩

/-- A write keeps the canonical form. -/
theorem Memory.wf_write (m : Memory) (c : Byte) (v : U16) (h : m.wf = true) : (m.write c v).wf = true :=
  Memory.risingFrom_write m 0 c v h (Nat.zero_le _)

theorem Memory.risingFrom_filterMap (f : Byte → Option U16) (n lo : Nat) (h : lo + n ≤ 256) :
    Memory.risingFrom lo
      ((List.range' lo n).filterMap fun k => (f (BitVec.ofNat 8 k)).map fun v => (k, v)) = true := by
  induction n generalizing lo with
  | zero => rfl
  | succ n ih =>
    have hrest := ih (lo + 1) (by omega)
    simp only [List.range'_succ, List.filterMap_cons]
    cases hf : f (BitVec.ofNat 8 lo) with
    | none => simpa using Memory.risingFrom_mono (Nat.le_succ lo) hrest
    | some v =>
      simp only [Option.map_some, Memory.risingFrom, Bool.and_eq_true, decide_eq_true_eq]
      exact ⟨⟨Nat.le_refl _, by omega⟩, hrest⟩

/-- A table given entry by entry has the canonical form. -/
theorem Memory.wf_ofEntries (f : Byte → Option U16) : (Memory.ofEntries f).wf = true := by
  rw [Memory.ofEntries, List.range_eq_range']
  exact Memory.risingFrom_filterMap f 256 0 (Nat.le_refl _)

/-- The empty table has the canonical form. -/
theorem Memory.wf_nil : Memory.wf [] = true := rfl

/-- The table after reset has the canonical form. -/
theorem State.reset_val_wf : State.reset.val.wf = true := rfl

theorem Memory.read_eq_none_of_lt {lo : Nat} {m : Memory} (hm : Memory.risingFrom lo m = true) (c : Byte)
    (h : c.toNat < lo) : m.read c = none := by
  induction m generalizing lo with
  | nil => rfl
  | cons cell rest ih =>
    obtain ⟨k, w⟩ := cell
    simp only [Memory.risingFrom, Bool.and_eq_true, decide_eq_true_eq] at hm
    have hk : k ≠ c.toNat := by omega
    simp only [Memory.read, hk, if_false]
    exact ih hm.2 (by omega)

end Sys2Proof.Machine
end

