-- ==== Sys2Proof/Laws/State.lean ====
section
/-! SUPPORT. One lemma per field per update of the state. -/

namespace Sys2Proof.Machine

@[simp] theorem memRead_eq (c : Byte) (s : State) : memRead c s = s.val.read c := rfl

@[simp] theorem memWrite_run (c : Byte) (v : U16) (s : State) : (memWrite c v s).run = s.run := rfl
@[simp] theorem memWrite_val (c : Byte) (v : U16) (s : State) : (memWrite c v s).val = s.val.write c v := rfl
@[simp] theorem memWrite_leCo2 (c : Byte) (v : U16) (s : State) : (memWrite c v s).leCo2 = s.leCo2 := rfl
@[simp] theorem memWrite_leTemp (c : Byte) (v : U16) (s : State) : (memWrite c v s).leTemp = s.leTemp := rfl
@[simp] theorem memWrite_params (c : Byte) (v : U16) (s : State) : (memWrite c v s).params = s.params := rfl
@[simp] theorem memWrite_inputs (c : Byte) (v : U16) (s : State) : (memWrite c v s).inputs = s.inputs := rfl
@[simp] theorem memWrite_halts (c : Byte) (v : U16) (s : State) : (memWrite c v s).halts = s.halts := rfl

@[simp] theorem presentFirst_run (i : PortInput) (s : State) : (presentFirst i s).run = s.run := rfl
@[simp] theorem presentFirst_val (i : PortInput) (s : State) : (presentFirst i s).val = s.val := rfl
@[simp] theorem presentFirst_leCo2 (i : PortInput) (s : State) : (presentFirst i s).leCo2 = s.leCo2 := rfl
@[simp] theorem presentFirst_leTemp (i : PortInput) (s : State) : (presentFirst i s).leTemp = s.leTemp := rfl
@[simp] theorem presentFirst_params (i : PortInput) (s : State) : (presentFirst i s).params = s.params := rfl
@[simp] theorem presentFirst_inputs (i : PortInput) (s : State) : (presentFirst i s).inputs = i :: s.inputs := rfl
@[simp] theorem presentFirst_halts (i : PortInput) (s : State) : (presentFirst i s).halts = s.halts := rfl

@[simp] theorem endCycle_state (st : Status) (r : Option Reading) (s : State) : (endCycle st r s).state = s := rfl
@[simp] theorem endCycle_out (st : Status) (r : Option Reading) (s : State) : (endCycle st r s).out = ⟨st, r⟩ := rfl

@[simp] theorem raiseError_state (e : ErrorKind) (s : State) : (raiseError e s).state = s := rfl
@[simp] theorem raiseError_out (e : ErrorKind) (s : State) : (raiseError e s).out = ⟨e.status, none⟩ := rfl

@[simp] theorem installReset_run (s : State) : (installReset s).run = .running := rfl
@[simp] theorem installReset_val (s : State) : (installReset s).val = [] := rfl
@[simp] theorem installReset_leCo2 (s : State) : (installReset s).leCo2 = none := rfl
@[simp] theorem installReset_leTemp (s : State) : (installReset s).leTemp = none := rfl
@[simp] theorem installReset_params (s : State) : (installReset s).params = s.params := rfl
@[simp] theorem installReset_inputs (s : State) : (installReset s).inputs = s.inputs := rfl
@[simp] theorem installReset_halts (s : State) : (installReset s).halts = s.halts := rfl

@[simp] theorem haltBlock_run (s : State) : (haltBlock s).run = .halted := rfl
@[simp] theorem haltBlock_val (s : State) : (haltBlock s).val = Memory.ofEntries (Config.haltedVal s.halts) := rfl
@[simp] theorem haltBlock_leCo2 (s : State) : (haltBlock s).leCo2 = Config.haltedLeCo2 s.halts := rfl
@[simp] theorem haltBlock_leTemp (s : State) : (haltBlock s).leTemp = Config.haltedLeTemp s.halts := rfl
@[simp] theorem haltBlock_params (s : State) : (haltBlock s).params = s.params := rfl
@[simp] theorem haltBlock_inputs (s : State) : (haltBlock s).inputs = s.inputs := rfl
@[simp] theorem haltBlock_halts (s : State) : (haltBlock s).halts = s.halts + 1 := rfl

@[simp] theorem store_run (c : Byte) (v : U16) (s : State) : (store c v s).run = s.run := rfl
@[simp] theorem store_val (c : Byte) (v : U16) (s : State) : (store c v s).val = s.val.write c v := rfl
@[simp] theorem store_leCo2 (c : Byte) (v : U16) (s : State) : (store c v s).leCo2 = s.leCo2 := rfl
@[simp] theorem store_leTemp (c : Byte) (v : U16) (s : State) : (store c v s).leTemp = s.leTemp := rfl
@[simp] theorem store_params (c : Byte) (v : U16) (s : State) : (store c v s).params = s.params := rfl
@[simp] theorem store_inputs (c : Byte) (v : U16) (s : State) : (store c v s).inputs = s.inputs := rfl
@[simp] theorem store_halts (c : Byte) (v : U16) (s : State) : (store c v s).halts = s.halts := rfl

@[simp] theorem emit_run (v : U16) (s : State) : (emit v s).1.run = s.run := rfl
@[simp] theorem emit_val (v : U16) (s : State) : (emit v s).1.val = s.val := rfl
@[simp] theorem emit_leCo2 (v : U16) (s : State) : (emit v s).1.leCo2 = some v := rfl
@[simp] theorem emit_leTemp (v : U16) (s : State) : (emit v s).1.leTemp = memRead Config.codeTemp s := rfl
@[simp] theorem emit_params (v : U16) (s : State) : (emit v s).1.params = s.params := rfl
@[simp] theorem emit_inputs (v : U16) (s : State) : (emit v s).1.inputs = s.inputs := rfl
@[simp] theorem emit_halts (v : U16) (s : State) : (emit v s).1.halts = s.halts := rfl

end Sys2Proof.Machine
end

