-- ==== Sys2Proof/Laws/Ops.lean ====
section
/-! SUPPORT. One lemma per shared operation that says once everything it can do. -/

namespace Sys2Proof.Machine

theorem whileRunning_of_running (f : State → CycleResult) {s : State} (h : s.run = .running) : whileRunning f s = f s := by
  simp [whileRunning, h]

theorem whileRunning_of_halted (f : State → CycleResult) {s : State} (h : s.run = .halted) :
    whileRunning f s = endCycle .halted none s := by
  simp [whileRunning, h]

theorem takeInput_cons {s : State} {i : PortInput} {rest : List PortInput} (h : s.inputs = i :: rest) :
    takeInput s = (i, { s with inputs := rest }) := by
  simp [takeInput, h]

theorem takeInput_nil {s : State} (h : s.inputs = []) : takeInput s = (idleInput, s) := by
  simp [takeInput, h]

/-- Everything that taking a sample can do: it drops the first of the presented samples. -/
theorem takeInput_state (s : State) : (takeInput s).2 = { s with inputs := s.inputs.tail } := by
  cases s with
  | mk run val leCo2 leTemp params inputs halts => cases inputs <;> rfl

/-- EMITCOND as a proposition (42_aggregator R145). -/
theorem emitCond_iff (code : Byte) (v : U16) (s : State) :
    emitCond code v s = true ↔ code = Config.codeCo2 ∧ s.leCo2 ≠ some v := by
  cases h : s.leCo2 <;> simp [emitCond, h]

/-- Everything that OBSERVE and the end of its cycle can do (42_aggregator R140, 43_pipeline R172). -/
theorem observeCycle_cases (code : Byte) (v : U16) (s : State) :
    (code = Config.codeCo2 ∧ s.leCo2 ≠ some v ∧
      observeCycle code v s =
        ⟨{ s with val := s.val.write code v, leCo2 := some v, leTemp := (s.val.write code v).read Config.codeTemp },
          ⟨.emit, some (buildReading v ((s.val.write code v).read Config.codeTemp))⟩⟩) ∨
    (¬ (code = Config.codeCo2 ∧ s.leCo2 ≠ some v) ∧
      observeCycle code v s = ⟨{ s with val := s.val.write code v }, ⟨.stored, none⟩⟩) := by
  by_cases h : emitCond code v (store code v s) = true
  · have h' := (emitCond_iff code v (store code v s)).1 h
    refine .inl ⟨h'.1, h'.2, ?_⟩
    simp only [observeCycle, observe, h, if_true]
    rfl
  · have h' := fun e => h ((emitCond_iff code v (store code v s)).2 e)
    refine .inr ⟨h', ?_⟩
    simp only [observeCycle, observe, h]
    rfl

/-- Everything that DECODE can do (41_framedecoder R120). -/
theorem decodeReport_cases (p : Bytes8) :
    (chkTerm p = true ∧ chkSum p = true ∧ decodeReport p = .ok (extractField p)) ∨
    (¬ (chkTerm p = true ∧ chkSum p = true) ∧ decodeReport p = .error .checksumFailed) := by
  by_cases h : chkTerm p = true ∧ chkSum p = true
  · exact .inl ⟨h.1, h.2, by simp [decodeReport, h.1, h.2]⟩
  · refine .inr ⟨h, ?_⟩
    simp only [decodeReport, Bool.and_eq_true, if_neg h]

/-- Everything that the pipeline of a `REPORT` can do (43_pipeline R172). -/
theorem pipeline_cases (raw : Bytes8) (s : State) :
    (∃ f, decodeReport (transform s.params raw) = .ok f ∧ pipeline raw s = observeCycle f.code f.value s) ∨
    (decodeReport (transform s.params raw) = .error .checksumFailed ∧
      pipeline raw s = raiseError .checksumFailed s) := by
  obtain ⟨_, _, h⟩ | ⟨_, h⟩ := decodeReport_cases (transform s.params raw)
  · exact .inl ⟨_, h, by simp [pipeline, h]⟩
  · exact .inr ⟨h, by simp [pipeline, h]⟩

/-- `exec` of an operation always answers the state of its cycle (43_pipeline R179). -/
theorem exec_eq_cycle (i : Instr) (s : State) : exec i s = .next (cycle i s).state := by
  cases i <;> rfl

/-- A halted block ignores every operation but `RESET` (60_exceptions R195). -/
theorem cycle_of_halted {i : Instr} {s : State} (h : s.run = .halted) (hi : i ≠ .reset) :
    cycle i s = endCycle .halted none s := by
  have w := fun f => whileRunning_of_halted f h
  cases i with
  | reset => exact absurd rfl hi
  | cancel | unavail | report _ | nodata | obsCo2 _ _ _ _ | obsTemp _ _ _ _ | obsOther _ _ _ _ _ | badFrame _ =>
    simp only [cycle, cancelCycle, unavailCycle, reportCycle, nodataCycle, obsCo2Cycle, obsTempCycle, obsOtherCycle,
      badFrameCycle, w]

/-- `step` answers the state of the next cycle. -/
theorem step_eq_cycle (s : State) : step s = .next (cycle (decodePort (takeInput s).1) (takeInput s).2).state :=
  exec_eq_cycle _ _

end Sys2Proof.Machine
end

