-- ==== Sys2Proof/Laws/Words.lean ====
section
/-! SUPPORT. Small lemmas about eight-element sequences, packing, and the match-and-mask test of an opcode-table row. -/

namespace Sys2Proof

@[simp] theorem Oct.get_ofFn {α : Type} (f : Pos → α) (i : Pos) : (Oct.ofFn f).get i = f i := by
  fin_cases i <;> rfl

@[simp] theorem Oct.get_set {α : Type} (o : Oct α) (j : Pos) (a : α) (i : Pos) :
    (o.set j a).get i = if i = j then a else o.get i :=
  Oct.get_ofFn _ i

theorem Oct.eq_of_get_eq {α : Type} {a b : Oct α} (h : ∀ i, a.get i = b.get i) : a = b := by
  obtain ⟨a0, a1, a2, a3, a4, a5, a6, a7⟩ := a
  obtain ⟨b0, b1, b2, b3, b4, b5, b6, b7⟩ := b
  obtain rfl : a0 = b0 := h 0
  obtain rfl : a1 = b1 := h 1
  obtain rfl : a2 = b2 := h 2
  obtain rfl : a3 = b3 := h 3
  obtain rfl : a4 = b4 := h 4
  obtain rfl : a5 = b5 := h 5
  obtain rfl : a6 = b6 := h 6
  obtain rfl : a7 = b7 := h 7
  rfl

theorem append_byte_toNat {n : Nat} (x : BitVec n) (b : Byte) : (x ++ b).toNat = x.toNat * 256 + b.toNat := by
  rw [BitVec.toNat_append, ← Nat.shiftLeft_add_eq_or_of_lt b.isLt, Nat.shiftLeft_eq]

/-- The packed word as a number (00_scope R14). -/
theorem pack_toNat (b : Bytes8) :
    (pack b).toNat =
      b.b0.toNat * 2 ^ 56 + b.b1.toNat * 2 ^ 48 + b.b2.toNat * 2 ^ 40 + b.b3.toNat * 2 ^ 32 + b.b4.toNat * 2 ^ 24 +
        b.b5.toNat * 2 ^ 16 + b.b6.toNat * 2 ^ 8 + b.b7.toNat := by
  simp only [pack, append_byte_toNat]
  omega

/-- Byte `i` of a packed word as a number. -/
theorem unpack_get_toNat (w : BitVec 64) (i : Pos) :
    ((unpack w).get i).toNat = w.toNat / 2 ^ (56 - 8 * i.val) % 256 := by
  simp [unpack, BitVec.extractLsb'_toNat, Nat.shiftRight_eq_div_pow]

@[simp] theorem unpack_pack (b : Bytes8) : unpack (pack b) = b := by
  refine Oct.eq_of_get_eq fun i => BitVec.eq_of_toNat_eq ?_
  rw [unpack_get_toNat, pack_toNat]
  have h0 := b.b0.isLt
  have h1 := b.b1.isLt
  have h2 := b.b2.isLt
  have h3 := b.b3.isLt
  have h4 := b.b4.isLt
  have h5 := b.b5.isLt
  have h6 := b.b6.isLt
  have h7 := b.b7.isLt
  fin_cases i <;> simp [Oct.get] <;> omega

@[simp] theorem pack_unpack (w : BitVec 64) : pack (unpack w) = w := by
  apply BitVec.eq_of_toNat_eq
  rw [pack_toNat]
  have h := unpack_get_toNat w
  have h0 := h 0
  have h1 := h 1
  have h2 := h 2
  have h3 := h 3
  have h4 := h 4
  have h5 := h 5
  have h6 := h 6
  have h7 := h 7
  have hw := w.isLt
  simp [Oct.get] at h0 h1 h2 h3 h4 h5 h6 h7
  omega

theorem unpack_injective {x y : BitVec 64} (h : unpack x = unpack y) : x = y := by
  rw [← pack_unpack x, h, pack_unpack]

theorem unpack_and_get (x y : BitVec 64) (i : Pos) :
    (unpack (x &&& y)).get i = (unpack x).get i &&& (unpack y).get i := by
  simp [unpack, BitVec.extractLsb'_and]

/-- A row's test holds byte by byte. -/
theorem matchesRow_iff (w m k : BitVec 64) :
    matchesRow w m k = true ↔ ∀ i, (unpack w).get i &&& (unpack k).get i = (unpack m).get i := by
  simp only [matchesRow, beq_iff_eq]
  constructor
  · intro h i
    rw [← unpack_and_get, h]
  · intro h
    refine unpack_injective (Oct.eq_of_get_eq fun i => ?_)
    rw [unpack_and_get, h]

theorem and_byte_ones (b : Byte) : b &&& 255#8 = b :=
  BitVec.and_allOnes

/-- The test of the `OBS.CO2` and `OBS.TEMP` rows: the code and the terminator (30_encoding R78). -/
theorem matchesRow_code (c : Byte) (m : BitVec 64) (hm : unpack m = ⟨c, 0, 0, 0, 0x0D, 0, 0, 0⟩) (w : BitVec 64) :
    matchesRow w m 0xFF000000FF000000 = ((unpack w).b0 == c && (unpack w).b4 == 0x0D) := by
  have hk : unpack 0xFF000000FF000000 = ⟨0xFF, 0, 0, 0, 0xFF, 0, 0, 0⟩ := by decide
  rw [Bool.eq_iff_iff, matchesRow_iff, hk, hm]
  simp [Fin.forall_fin_succ, Oct.get, and_byte_ones]

/-- The test of the `OBS.OTHER` row: the terminator (30_encoding R78). -/
theorem matchesRow_term (w : BitVec 64) :
    matchesRow w 0x000000000D000000 0x00000000FF000000 = ((unpack w).b4 == 0x0D) := by
  have hk : unpack 0x00000000FF000000 = ⟨0, 0, 0, 0, 0xFF, 0, 0, 0⟩ := by decide
  have hm : unpack 0x000000000D000000 = ⟨0, 0, 0, 0, 0x0D, 0, 0, 0⟩ := by decide
  rw [Bool.eq_iff_iff, matchesRow_iff, hk, hm]
  simp [Fin.forall_fin_succ, Oct.get, and_byte_ones]

end Sys2Proof
end

