-- ==== Sys2Proof/Laws/PerInstr.lean ====
section
/-! SUPPORT. Per-instruction facts about the encoder: each word it writes has the match bits of its own row of
spec/opcode_table.json. -/

namespace Sys2Proof.Laws

/-- The word has the format of the instruction's row and the match bits of that row under its mask (30_encoding R72,
R78). -/
def RowBits.inRow : Instr → InstrWord → Bool
  | .reset, .port i => matchesRow i.ctl 0b1000 0b1000
  | .cancel, .port i => matchesRow i.ctl 0b0100 0b1100
  | .unavail, .port i => matchesRow i.ctl 0b0010 0b1110
  | .report _, .port i => matchesRow i.ctl 0b0001 0b1111
  | .nodata, .port i => matchesRow i.ctl 0b0000 0b1111
  | .obsCo2 _ _ _ _, .frame w => matchesRow w 0x500000000D000000 0xFF000000FF000000
  | .obsTemp _ _ _ _, .frame w => matchesRow w 0x420000000D000000 0xFF000000FF000000
  | .obsOther _ _ _ _ _, .frame w => matchesRow w 0x000000000D000000 0x00000000FF000000
  | .badFrame _, .frame w => matchesRow w 0x0000000000000000 0x0000000000000000
  | _, _ => false

/-- The encoder writes the match bits of the instruction's own row. -/
def RowBits.Statement (i : Instr) : Prop :=
  i.wellFormed = true → RowBits.inRow i (encode i) = true

theorem RowBits.reset : RowBits.Statement .reset := fun _ => rfl

theorem RowBits.cancel : RowBits.Statement .cancel := fun _ => rfl

theorem RowBits.unavail : RowBits.Statement .unavail := fun _ => rfl

theorem RowBits.report (raw : Bytes8) : RowBits.Statement (.report raw) := fun _ => by
  simp [RowBits.inRow, encode, matchesRow]

theorem RowBits.nodata : RowBits.Statement .nodata := fun _ => rfl

theorem RowBits.obsCo2 (value : U16) (u5 u6 u7 : Byte) : RowBits.Statement (.obsCo2 value u5 u6 u7) := fun _ => by
  have hm : unpack 0x500000000D000000 = ⟨0x50, 0, 0, 0, 0x0D, 0, 0, 0⟩ := by decide
  simp only [RowBits.inRow, encode]
  rw [matchesRow_code 0x50 _ hm, unpack_pack]
  rfl

theorem RowBits.obsTemp (value : U16) (u5 u6 u7 : Byte) : RowBits.Statement (.obsTemp value u5 u6 u7) := fun _ => by
  have hm : unpack 0x420000000D000000 = ⟨0x42, 0, 0, 0, 0x0D, 0, 0, 0⟩ := by decide
  simp only [RowBits.inRow, encode]
  rw [matchesRow_code 0x42 _ hm, unpack_pack]
  rfl

theorem RowBits.obsOther (code : Byte) (value : U16) (u5 u6 u7 : Byte) :
    RowBits.Statement (.obsOther code value u5 u6 u7) := fun _ => by
  simp only [RowBits.inRow, encode]
  rw [matchesRow_term, unpack_pack]
  rfl

theorem RowBits.badFrame (p : Bytes8) : RowBits.Statement (.badFrame p) := fun _ => by
  simp [RowBits.inRow, encode, matchesRow]

end Sys2Proof.Laws
end

