-- ==== Sys2Proof/Laws/Transform.lean ====
section
/-! SUPPORT. The stages of the Transform and of its inverse, byte by byte. -/

namespace Sys2Proof.Machine

@[simp] theorem xorKey_get (key u : Bytes8) (i : Pos) : (xorKey key u).get i = u.get i ^^^ key.get i :=
  Oct.get_ofFn _ i

@[simp] theorem rotMix_get (x : Bytes8) (i : Pos) :
    (rotMix x).get i = (x.get i >>> 3) ||| (x.get (i - 1) <<< 5) :=
  Oct.get_ofFn _ i

@[simp] theorem nibSwap_get (c : Bytes8) (i : Pos) : (nibSwap c).get i = nibSwapByte (c.get i) :=
  Oct.get_ofFn _ i

@[simp] theorem modAdd_get (p ns : Bytes8) (i : Pos) : (modAdd p ns).get i = p.get i + ns.get i :=
  Oct.get_ofFn _ i

@[simp] theorem unmix_get (m : Bytes8) (i : Pos) :
    (unmix m).get i = (m.get i <<< 3) ||| (m.get (i + 1) >>> 5) :=
  Oct.get_ofFn _ i

@[simp] theorem gather_get (sh : Shuffle) (u : Bytes8) (i : Pos) : (gather sh u).get i = u.get (sh.pos.get i) :=
  Oct.get_ofFn _ i

theorem mem_positions (i : Pos) : i ∈ positions := by
  fin_cases i <;> simp [positions]

end Sys2Proof.Machine
end

