-- ==== Sys2Proof/Tests/Slice0.lean ====
section
/-! SUPPORT. The model's own tests, expected results from 95_test_vectors.md, and one witness for each statement that has
hypotheses. -/

namespace Sys2Proof.Tests

open Sys2Proof.Machine

/-! ## Helpers -/

/-- `SHUFFLE` of `CFG-T1`, which is not its own inverse (95_test_vectors section 2). -/
def shuffleT1 : Shuffle := ⟨⟨3, 0, 6, 1, 7, 2, 5, 4⟩, by decide⟩

/-- The identity permutation of `CFG-ID`. -/
def shuffleId : Shuffle := ⟨⟨0, 1, 2, 3, 4, 5, 6, 7⟩, by decide⟩

/-- `CFG-T1`. -/
def cfgT1 : Params := ⟨Config.defaultKey, ⟨0x01, 0x23, 0x45, 0x67, 0x89, 0xAB, 0xCD, 0xEF⟩, shuffleT1⟩

/-- `CFG-ID`. -/
def cfgId : Params := ⟨⟨0, 0, 0, 0, 0, 0, 0, 0⟩, ⟨0, 0, 0, 0, 0, 0, 0, 0⟩, shuffleId⟩

/-- A running block under `CFG-T1` with this aggregator state and nothing presented. -/
def running (val : Memory) (leCo2 leTemp : Option U16) : State :=
  { run := .running, val := val, leCo2 := leCo2, leTemp := leTemp, params := cfgT1, inputs := [], halts := 0 }

/-- A halted block. -/
def halted : State := { running [(0x50, 400)] (some 400) none with run := .halted }

/-- The next state, if the outcome is one. -/
def after (o : Host.Outcome State Fault Refusal) : Option State :=
  match o with
  | .next s => some s
  | .fault _ => none
  | .refused _ => none

/-- The next state and the output record of an operation; `exec` must answer the cycle's state. -/
def ran (i : Instr) (s : State) : Option (State × OutRecord) :=
  (after (exec i s)).map fun t => (t, outputOf i s)

/-- A `REPORT` sample with this `in_data`. -/
def rep (d : BitVec 64) : PortInput := ⟨0b0001, d⟩

/-- Wire forms under `CFG-T1` (95_test_vectors section 3.5). -/
def wCo2_400 : PortInput := rep 0x2FC53B5965E2F56D
def wCo2_401 : PortInput := rep 0x57C53B5965EAF56D
def wTemp4493 : PortInput := rep 0x27563BD964CAF56D
def wField41 : PortInput := rep 0x7F4E3BE26487F56D
def wBadSum : PortInput := rep 0x57C53B5965E2F56D

/-- The raw report of `CO2 400` and of `BADSUM` under `CFG-T1`. -/
def rawCo2_400 : Bytes8 := ⟨0x2F, 0xC5, 0x3B, 0x59, 0x65, 0xE2, 0xF5, 0x6D⟩
def rawBadSum : Bytes8 := ⟨0x57, 0xC5, 0x3B, 0x59, 0x65, 0xE2, 0xF5, 0x6D⟩

/-- The plaintext frames `CO2 400`, `TEMP 4493`, `FIELD 0x41, 0x1234`, `BADSUM` and `BADTERM`. -/
def pCo2_400 : Bytes8 := ⟨0x50, 0x01, 0x90, 0xE1, 0x0D, 0, 0, 0⟩
def pTemp4493 : Bytes8 := ⟨0x42, 0x11, 0x8D, 0xE0, 0x0D, 0, 0, 0⟩
def pField41 : Bytes8 := ⟨0x41, 0x12, 0x34, 0x87, 0x0D, 0, 0, 0⟩
def pBadSum : Bytes8 := ⟨0x50, 0x01, 0x90, 0xE2, 0x0D, 0, 0, 0⟩
def pBadTerm : Bytes8 := ⟨0x50, 0x01, 0x90, 0xE1, 0x0A, 0, 0, 0⟩

/-! ## WellFormed: what each check refuses -/

theorem test_obsOther_co2_code_refused : (Instr.obsOther 0x50 400 0 0 0).wellFormed = false := by decide
theorem test_obsOther_temp_code_refused : (Instr.obsOther 0x42 400 0 0 0).wellFormed = false := by decide
theorem test_badFrame_valid_frame_refused : (Instr.badFrame pCo2_400).wellFormed = false := by decide
theorem test_wellFormed_neighbours_admitted :
    (Instr.obsOther 0x51 400 0 0 0).wellFormed = true ∧ (Instr.badFrame pBadTerm).wellFormed = true := by decide
theorem test_shuffle_not_permutation_refused : Shuffle.ofPositions? ⟨3, 0, 6, 1, 7, 2, 5, 5⟩ = none := by decide
theorem test_shuffle_permutation_admitted : (Shuffle.ofPositions? ⟨3, 0, 6, 1, 7, 2, 5, 4⟩).isSome = true := by decide

/-! ## Decoding: words written out from 30_encoding R72, R78 -/

/-- 95_test_vectors 3.9: the sixteen control words. -/
theorem test_control_words :
    (List.range 16).map (fun c => decodePort ⟨BitVec.ofNat 4 c, 0⟩) =
      [.nodata, .report ⟨0, 0, 0, 0, 0, 0, 0, 0⟩, .unavail, .unavail, .cancel, .cancel, .cancel, .cancel,
       .reset, .reset, .reset, .reset, .reset, .reset, .reset, .reset] := by decide

/-- 95_test_vectors 3.5: byte 0 of a report is the most significant byte of `in_data`. -/
theorem test_report_word : decodeWord (.port ⟨0b0001, 0x2FC53B5965E2F56D⟩) = .report rawCo2_400 := by decide

/-- D1, D10, D14, D15, D16. -/
theorem test_obsCo2_words :
    decodeWord (.frame 0x500190E10D000000) = .obsCo2 400 0 0 0 ∧
    decodeWord (.frame 0x50FFFF4E0D000000) = .obsCo2 65535 0 0 0 ∧
    decodeWord (.frame 0x500190E10DAABBCC) = .obsCo2 400 0xAA 0xBB 0xCC ∧
    decodeWord (.frame 0x500100510D000000) = .obsCo2 256 0 0 0 ∧
    decodeWord (.frame 0x500001510D000000) = .obsCo2 1 0 0 0 := by decide

/-- D2, D17. -/
theorem test_obsTemp_words :
    decodeWord (.frame 0x42118DE00D000000) = .obsTemp 4493 0 0 0 ∧
    decodeWord (.frame 0x420190D30D000000) = .obsTemp 400 0 0 0 := by decide

/-- D11, D12, D13, D18. -/
theorem test_obsOther_words :
    decodeWord (.frame 0xFFFFFFFD0D000000) = .obsOther 0xFF 65535 0 0 0 ∧
    decodeWord (.frame 0x000000000D000000) = .obsOther 0 0 0 0 0 ∧
    decodeWord (.frame 0x411234870D000000) = .obsOther 0x41 4660 0 0 0 ∧
    decodeWord (.frame 0x510190E20D000000) = .obsOther 0x51 400 0 0 0 := by decide

/-- D3, D4, D6, D7, D8, D9. -/
theorem test_badFrame_words :
    decodeWord (.frame 0x500190E20D000000) = .badFrame pBadSum ∧
    decodeWord (.frame 0x500190E10A000000) = .badFrame pBadTerm ∧
    decodeWord (.frame 0) = .badFrame ⟨0, 0, 0, 0, 0, 0, 0, 0⟩ ∧
    decodeWord (.frame 0x0D0D0D0D0D0D0D0D) = .badFrame ⟨0x0D, 0x0D, 0x0D, 0x0D, 0x0D, 0x0D, 0x0D, 0x0D⟩ ∧
    decodeWord (.frame 0x500190E1000D0000) = .badFrame ⟨0x50, 0x01, 0x90, 0xE1, 0x00, 0x0D, 0, 0⟩ ∧
    decodeWord (.frame 0x50FFFF4F0D000000) = .badFrame ⟨0x50, 0xFF, 0xFF, 0x4F, 0x0D, 0, 0, 0⟩ := by decide

theorem test_encode_words :
    encode (.obsTemp 4493 0 0 0) = .frame 0x42118DE00D000000 ∧ encode (.obsCo2 65535 0 0 0) = .frame 0x50FFFF4E0D000000 ∧
    encode .cancel = .port ⟨0b0100, 0⟩ := by decide

theorem test_decodeBytes_rejects_by_name :
    decodeBytes .F [1, 2, 3] = .error .wrongLength ∧ decodeBytes .P [] = .error .wrongLength ∧
    decodeBytes .P [0x10, 0, 0, 0, 0, 0, 0, 0, 0] = .error .controlWordTooWide := ⟨rfl, rfl, rfl⟩

/-- The host's numbering (log 10). -/
theorem test_decodeTableWord :
    decodeTableWord 4 0x8 = some .reset ∧ decodeTableWord 8 0x4 = some .cancel ∧
    decodeTableWord 64 0x411234870D000000 = some (.obsOther 0x41 0x1234 0 0 0) ∧ decodeTableWord 8 0x10 = none := by decide

/-- A presented word runs as the first instruction after reset, under the open parameters. -/
theorem test_withFetchWord_from_reset :
    step (State.reset.withFetchWord 8 0x2) = .next State.reset ∧
    output (State.reset.withFetchWord 8 0x2) = ⟨.unavail, none⟩ := ⟨rfl, rfl⟩

/-- A presented frame runs too: CSTATE and SHUFFLE are open, and the next state is there all the same. -/
theorem test_withFetchWord_frame_from_reset :
    (after (step (State.reset.withFetchWord 64 0x500190E10D000000))).isSome = true := by decide

/-! ## The Transform: 95_test_vectors 3.1 to 3.5 -/

/-- T-T1-3, stage by stage; a gather, the neighbour `i+1`, a reversed subtraction, an unswapped `CSTATE` and a rotate
within the byte (W1 to W5) each give another row. -/
theorem test_transform_stages :
    unshuffle shuffleT1 ⟨1, 2, 3, 4, 5, 6, 7, 8⟩ = ⟨0x02, 0x04, 0x06, 0x01, 0x08, 0x07, 0x03, 0x05⟩ ∧
    xorKey Config.defaultKey ⟨2, 4, 6, 1, 8, 7, 3, 5⟩ = ⟨0xC6, 0xC2, 0xC6, 0x93, 0x48, 0x24, 0xDF, 0x93⟩ ∧
    rotMix ⟨0xC6, 0xC2, 0xC6, 0x93, 0x48, 0x24, 0xDF, 0x93⟩ = ⟨0x78, 0xD8, 0x58, 0xD2, 0x69, 0x04, 0x9B, 0xF2⟩ ∧
    nibSwap cfgT1.cstate = ⟨0x10, 0x32, 0x54, 0x76, 0x98, 0xBA, 0xDC, 0xFE⟩ ∧
    transform cfgT1 ⟨1, 2, 3, 4, 5, 6, 7, 8⟩ = ⟨0x68, 0xA6, 0x04, 0x5C, 0xD1, 0x4A, 0xBF, 0xF4⟩ := by decide

/-- T-T1-6, T-ID-3, T-ID-4. -/
theorem test_transform_vectors :
    transform cfgT1 rawCo2_400 = pCo2_400 ∧
    transform cfgId ⟨1, 2, 3, 4, 5, 6, 7, 8⟩ = ⟨0x00, 0x20, 0x40, 0x60, 0x80, 0xA0, 0xC0, 0xE1⟩ ∧
    transform cfgId ⟨0x80, 0, 0, 0, 0, 0, 0, 1⟩ = ⟨0x30, 0, 0, 0, 0, 0, 0, 0⟩ := by decide

/-- Section 3.4, `CFG-T1`, and the row `FIELD 0x50, 400, 0xAA, 0xBB, 0xCC` of section 3.5. -/
theorem test_inverse :
    inverse cfgT1 pCo2_400 = rawCo2_400 ∧
    inverse cfgT1 ⟨0x50, 0x01, 0x90, 0xE1, 0x0D, 0xAA, 0xBB, 0xCC⟩ =
      ⟨0x2F, 0xC5, 0x62, 0x59, 0xC5, 0xE2, 0x07, 0x6B⟩ := by decide

/-- G2, G4: the borrow. -/
theorem test_modSub_borrows :
    modSub ⟨0x00, 0x00, 0, 0, 0, 0, 0, 0⟩ ⟨0x01, 0xFF, 0, 0, 0, 0, 0, 0⟩ = ⟨0xFF, 0x01, 0, 0, 0, 0, 0, 0⟩ := by decide

/-! ## Operations: 95_test_vectors 3.7 to 3.9 -/

/-- A5: the temperature is known. -/
theorem test_obsCo2_emits :
    ran (.obsCo2 400 0 0 0) (running [(0x42, 4493)] none none) =
      some (running [(0x42, 4493), (0x50, 400)] (some 400) (some 4493), ⟨.emit, some ⟨400, true, 613⟩⟩) := by decide

/-- A7: the CO2 value is the last emitted one; a newer temperature is not reported. -/
theorem test_obsCo2_repeated :
    ran (.obsCo2 400 0 0 0) (running [(0x42, 4700), (0x50, 400)] (some 400) (some 4493)) =
      some (running [(0x42, 4700), (0x50, 400)] (some 400) (some 4493), ⟨.stored, none⟩) := by decide

/-- A6: `LE_TEMP` keeps the emitted value. -/
theorem test_obsTemp_stores :
    ran (.obsTemp 4700 0 0 0) (running [(0x42, 4493), (0x50, 400)] (some 400) (some 4493)) =
      some (running [(0x42, 4700), (0x50, 400)] (some 400) (some 4493), ⟨.stored, none⟩) := by decide

/-- A13: a code next to 0x50 is not CO2. -/
theorem test_obsOther_stores :
    ran (.obsOther 0x51 400 0 0 0) (running [(0x50, 400)] (some 400) none) =
      some (running [(0x50, 400), (0x51, 400)] (some 400) none, ⟨.stored, none⟩) := by decide

/-- P3, cycle 1. -/
theorem test_badFrame_keeps_the_state :
    ran (.badFrame pBadSum) (running [] none none) = some (running [] none none, ⟨.chkFail, none⟩) := by decide

/-- A1 through the Transform, and A12's negative temperature with a valid raw 0. -/
theorem test_report_emits :
    ran (.report rawCo2_400) (running [] none none) =
      some (running [(0x50, 400)] (some 400) none, ⟨.emit, some ⟨400, false, 0⟩⟩) := by decide
theorem test_report_emits_raw_temperature_zero :
    outputOf (.report rawCo2_400) (running [(0x42, 0)] none none) = ⟨.emit, some ⟨400, true, -21852⟩⟩ := by decide

/-- 3.9, P9: the other port-level operations. -/
theorem test_nodata : ran .nodata (running [(0x50, 400)] (some 400) none) =
    some (running [(0x50, 400)] (some 400) none, ⟨.noData, none⟩) := by decide
theorem test_unavail : ran .unavail (running [(0x50, 400)] (some 400) none) =
    some (running [(0x50, 400)] (some 400) none, ⟨.unavail, none⟩) := by decide
theorem test_cancel_halts : (ran .cancel (running [] none none)).map (fun r => (r.1.run, r.2)) =
    some (.halted, ⟨.halted, none⟩) := by decide
theorem test_cancel_halted : ran .cancel halted = some (halted, ⟨.halted, none⟩) := by decide
theorem test_report_halted : ran (.report rawCo2_400) halted = some (halted, ⟨.halted, none⟩) := by decide
theorem test_reset_halted : ran .reset halted = some (running [] none none, ⟨.reset, none⟩) := by decide

/-- 3.9: the pin form of P2's `CO2 400`; section 3.7, row 0: two's complement on 20 bits. -/
theorem test_pins :
    (OutRecord.mk .emit (some ⟨400, true, 613⟩)).pins = ⟨2, 1, 0x0190, 1, 0x00265⟩ ∧
    (OutRecord.mk .emit (some ⟨0, true, -21852⟩)).pins = ⟨2, 1, 0, 1, 0xFAAA4⟩ ∧
    (OutRecord.mk .stored none).pins = ⟨1, 0, 0, 0, 0⟩ := by decide

/-- Section 3.7, the rows 0, 1, 4370, 4371, 4493, 65535 (T80, then T10 under a TIE that rounds down). -/
theorem test_temperature_rows :
    [0, 1, 4370, 4371, 4493, 65535].map tconv = [-21852, -21847, -2, 3, 613, 305823] ∧
    [0, 1, 4370, 4371, 4493, 65535].map (fun v => round1 (fun _ => false) (tconv v)) =
      [-2732, -2731, 0, 0, 77, 38228] := by decide

/-! ## Witnesses: the hypotheses of each statement are met together -/

theorem witness_DecodeOfEncodeIsTheInstruction :
    Instr.reset.wellFormed = true ∧ (Instr.report rawCo2_400).wellFormed = true ∧
    (Instr.obsCo2 0xFFFF 1 2 3).wellFormed = true ∧ (Instr.obsTemp 0 0 0 0).wellFormed = true ∧
    (Instr.obsOther 0x4F 0 0 0 0).wellFormed = true ∧ (Instr.badFrame pBadSum).wellFormed = true := by decide

theorem witness_ControlWordSelectsTheOperation :
    (0b1000#4).getLsbD 3 = true ∧
    ((0b0111#4).getLsbD 3 = false ∧ (0b0111#4).getLsbD 2 = true) ∧
    ((0b0011#4).getLsbD 3 = false ∧ (0b0011#4).getLsbD 2 = false ∧ (0b0011#4).getLsbD 1 = true) ∧
    (rep 5).ctl = 0b0001 ∧ idleInput.ctl = 0b0000 ∧
    (halted.run = .halted ∧ decodePort wCo2_400 ≠ .reset) := by decide

theorem witness_InDataIsReadByReportAlone : (0b0011#4) ≠ 0b0001 := by decide

theorem witness_FrameFieldsSelectTheOperation :
    (passesChecks ⟨0x50, 0xFF, 0xFF, 0x4E, 0x0D, 0, 0, 0⟩ ∧ passesChecks pTemp4493) ∧
    (passesChecks ⟨0x51, 0x01, 0x90, 0xE2, 0x0D, 0, 0, 0⟩ ∧ (0x51 : Byte) ≠ 0x50 ∧ (0x51 : Byte) ≠ 0x42) ∧
    ¬ passesChecks ⟨0x50, 0xFF, 0xFF, 0x4F, 0x0D, 0, 0, 0⟩ := by unfold passesChecks; decide

theorem witness_EitherFailedCheckDiscardsTheReport :
    (pBadSum.b4 ≠ 0x0D ∨ pBadSum.b3.toNat ≠ (pBadSum.b0.toNat + pBadSum.b1.toNat + pBadSum.b2.toNat) % 256) ∧
    pBadTerm.b4 ≠ 0x0D ∧
    (running [] none none).run = .running ∧ transform (running [] none none).params rawBadSum = pBadSum := by decide

theorem witness_UnshuffleScattersByShuffle :
    [7, 6, 5, 4, 3, 2, 1, 0].Perm positions ∧ (∀ i : Pos, shuffleId.pos.get i = i) ∧
    Shuffle.ofPositions? ⟨3, 0, 6, 1, 7, 2, 5, 5⟩ = none ∧
    unshuffle shuffleT1 ⟨1, 2, 3, 4, 5, 6, 7, 8⟩ ≠ gather shuffleT1 ⟨1, 2, 3, 4, 5, 6, 7, 8⟩ := by decide

theorem witness_XorKeyIsByteWise : cfgId.key.get 7 = 0 := by decide

theorem witness_RotMixCombinesWithThePreviousByte :
    (7 : Pos).val = ((0 : Pos).val + 7) % 8 ∧ (0 : Pos).val = ((1 : Pos).val + 7) % 8 ∧
    (6 : Pos).val = ((7 : Pos).val + 7) % 8 := by decide

theorem witness_PlaintextByteDependsOnTwoRawBytes :
    (cfgT1.shuffle.pos.get 1 = 0 ∧ cfgT1.shuffle.pos.get 4 = 0 - 1) ∧
    ((∀ i : Pos, i ≠ 0 → (⟨0, 9, 9, 9, 9, 9, 9, 9⟩ : Bytes8).get i = (⟨0x07, 9, 9, 9, 9, 9, 9, 9⟩ : Bytes8).get i) ∧
      (2 : Pos) ≠ cfgT1.shuffle.pos.get 0 ∧ (2 : Pos) ≠ cfgT1.shuffle.pos.get 0 + 1 ∧
      (0x00 : Byte).extractLsb' 3 5 = (0x07 : Byte).extractLsb' 3 5 ∧
      (0x00 : Byte).extractLsb' 0 3 = (0xF8 : Byte).extractLsb' 0 3) := by decide

theorem witness_DecoderAcceptsExactlyTheValidFrames :
    pBadTerm.b4 ≠ 0x0D ∧
    pBadSum.b3.toNat ≠ (pBadSum.b0.toNat + pBadSum.b1.toNat + pBadSum.b2.toNat) % 256 ∧
    (pCo2_400.b4 = 0x0D ∧ pCo2_400.b3.toNat = (pCo2_400.b0.toNat + pCo2_400.b1.toNat + pCo2_400.b2.toNat) % 256) := by
  decide

theorem witness_StepRunsTheDecodedOperation :
    ((running [] none none).presented [wCo2_400]).inputs = wCo2_400 :: [] ∧ (running [] none none).inputs = [] ∧
    ∃ t, step ((running [] none none).presented [wCo2_400]) = .next t := ⟨rfl, rfl, _, rfl⟩

theorem witness_PresentedTableWordRunsAsItsInstruction :
    decodeTableWord 8 0x9 = some .reset ∧ decodeTableWord 64 0x500190E10D000000 = some (.obsCo2 400 0 0 0) ∧
    decodeTableWord 72 0x6DF5E265593BC52F01 = some (.report rawCo2_400) := by decide

theorem witness_NodataIsANoOp : (running [(0x50, 400)] (some 400) none).run = .running := by decide

theorem witness_UnavailReportsAndKeepsTheState : (running [(0x42, 1)] none none).run = .running := by decide

theorem witness_CancelHaltsTheBlock :
    (running [] none none).run = .running ∧ halted.run = .halted ∧ Instr.cancel ≠ .reset := by decide

theorem witness_ResetInstallsTheResetState :
    ∃ t, exec .reset (running [(0x50, 400)] (some 400) none) = .next t := ⟨_, rfl⟩

theorem witness_ResetStateHoldsTheSpecValues : ∃ t, exec .reset halted = .next t ∧ t.params = cfgT1 :=
  ⟨_, rfl, by decide⟩

theorem witness_BadFrameChangesNothing :
    ¬ passesChecks pBadSum ∧ ¬ passesChecks pBadTerm ∧ (running [(0x50, 400)] (some 400) none).run = .running := by
  unfold passesChecks; decide

theorem witness_Co2FieldEmitsWhenNewOrChanged :
    ((running [] none none).run = .running ∧ (running [] none none).leCo2 ≠ some 0 ∧
      (running [] none none).val.read 0x42 = none) ∧
    ((running [(0x42, 0)] none none).leCo2 ≠ some 5 ∧ (running [(0x42, 0)] none none).val.read 0x42 = some 0) ∧
    (running [(0x50, 0)] (some 0) none).leCo2 = some 0 ∧
    (∃ t, exec (.obsCo2 0 0 0 0) (running [] none none) = .next t) ∧
    (running [] none none).aggregatorInv = true ∧ phase (running [] none none) = .idle :=
  ⟨by decide, by decide, by decide, ⟨_, rfl⟩, by decide, by decide⟩

theorem witness_TemperatureFieldIsStoredOnly :
    (running [(0x42, 4493)] none none).run = .running ∧ (running [(0x42, 4493)] none none).leCo2 ≠ some 0 ∧
    ∃ t, exec (.obsTemp 4700 0 0 0) (running [(0x42, 4493)] none none) = .next t := ⟨by decide, by decide, _, rfl⟩

theorem witness_UnknownFieldIsStoredOnly :
    (running [] none none).run = .running ∧ (0x51 : Byte) ≠ 0x50 ∧ (0x51 : Byte) ≠ 0x42 := by decide

theorem witness_ObservedFieldWritesOneEntry :
    (running [] none none).run = .running ∧
    ((0x50 : Byte) = 0x50 ∧ Instr.obsCo2 400 0 0 0 = .obsCo2 400 0 0 0) ∧
    ((0x42 : Byte) = 0x42 ∧ Instr.obsTemp 400 0 0 0 = .obsTemp 400 0 0 0) ∧
    ((0x4F : Byte) ≠ 0x50 ∧ (0x4F : Byte) ≠ 0x42 ∧ Instr.obsOther 0x4F 400 0 0 0 = .obsOther 0x4F 400 0 0 0) ∧
    (0x51 : Byte) ≠ 0x50 := by decide

theorem witness_ReportCycleFollowsTheStepFunction :
    ((running [] none none).run = .running ∧ transform (running [] none none).params rawBadSum = pBadSum ∧
      ¬ passesChecks pBadSum) ∧
    (transform (running [] none none).params rawCo2_400 = pCo2_400 ∧ passesChecks pCo2_400 ∧
      (400 : U16).toNat = 256 * pCo2_400.b1.toNat + pCo2_400.b2.toNat) ∧
    (pCo2_400.b0 = 0x50 ∧ (running [] none none).leCo2 ≠ some 400) ∧
    ¬ (pCo2_400.b0 = 0x50 ∧ (running [(0x50, 400)] (some 400) none).leCo2 ≠ some 400) := by
  unfold passesChecks; decide

theorem witness_RoundedTenthIsNearest :
    (4493 : U16).toNat % 8 ≠ 0 ∧ (0 : U16).toNat % 8 = 0 ∧ (65528 : U16).toNat % 8 = 0 ∧ (65535 : U16).toNat % 8 ≠ 0 := by
  decide

theorem witness_OutputPinsFollowTheStatus :
    (outputOf (.obsCo2 400 0 0 0) (running [(0x42, 4493)] none none)).pins.outValid = 1 ∧
    (outputOf .nodata (running [] none none)).pins.outValid = 0 ∧
    (running [] none none).run = .running ∧
    (outputOf (.report rawBadSum) (running [] none none)).status = .chkFail ∧
    (outputOf (.report rawCo2_400) (running [] none none)).status = .emit := by decide

theorem witness_ErrorCyclesArePrecise :
    (outputOf (.report rawBadSum) (running [(0x50, 400)] (some 400) none)).status = .chkFail ∧
    (outputOf .unavail (running [] none none)).status = .unavail := by decide

theorem witness_OnlyANewCo2FrameEmits :
    (∃ t, step ((running [] none none).presented [wCo2_400]) = .next t) ∧
    (output ((running [] none none).presented [wCo2_400])).reading = some ⟨400, false, 0⟩ := ⟨⟨_, rfl⟩, by decide⟩

theorem witness_LastEmittedChangesOnlyByEmission :
    (∃ t, step ((running [] none none).presented [wTemp4493]) = .next t) ∧
      nextOp ((running [] none none).presented [wTemp4493]) ≠ .reset ∧
      nextOp ((running [] none none).presented [wTemp4493]) ≠ .cancel ∧
      (output ((running [] none none).presented [wTemp4493])).reading = none :=
  ⟨⟨_, rfl⟩, by decide, by decide, by decide⟩

theorem witness_GatedAndLiteralConditionsAgree :
    (running [(0x42, 4493), (0x50, 400)] (some 400) (some 4493)).run = .running ∧
    (running [(0x42, 4493), (0x50, 400)] (some 400) (some 4493)).aggregatorInv = true := by decide

theorem witness_EveryStepKeepsTheInvariant :
    ((running [(0x42, 4493)] none none).presented [wCo2_400]).inv = true ∧
    ∃ t, step ((running [(0x42, 4493)] none none).presented [wCo2_400]) = .next t := ⟨by decide, _, rfl⟩

theorem witness_NoEntryDisappears :
    (∃ t, step ((running [(0x42, 4493)] none none).presented [wCo2_400]) = .next t) ∧
    nextOp ((running [(0x42, 4493)] none none).presented [wCo2_400]) ≠ .reset ∧
    nextOp ((running [(0x42, 4493)] none none).presented [wCo2_400]) ≠ .cancel ∧
    (((running [(0x42, 4493)] none none).presented [wCo2_400]).val.read 0x42).isSome = true :=
  ⟨⟨_, rfl⟩, by decide, by decide, by decide⟩

theorem witness_OnlyCancelHaltsAndOnlyResetResumes :
    (∃ t, step (halted.presented [⟨0b1000, 0⟩]) = .next t ∧ halted.run = .halted ∧ t.run = .running) ∧
    ∃ t, step ((running [] none none).presented [⟨0b0111, 0⟩]) = .next t ∧ t.run = .halted :=
  ⟨⟨_, rfl, by decide, by decide⟩, _, rfl, by decide⟩

theorem witness_PhaseTransitionsFollowTheTable :
    (running [] none none).run = .running ∧ (running [] none none).aggregatorInv = true ∧
    phase (running [] none none) = .idle ∧
    ((Instr.obsCo2 400 0 0 0).wellFormed = true ∧ ∃ t, exec (.obsCo2 400 0 0 0) (running [] none none) = .next t) ∧
    ((Instr.obsTemp 400 0 0 0).wellFormed = true ∧ ∃ t, exec (.obsTemp 400 0 0 0) (running [] none none) = .next t) ∧
    ((Instr.obsOther 0x51 400 0 0 0).wellFormed = true ∧
      ∃ t, exec (.obsOther 0x51 400 0 0 0) (running [] none none) = .next t) ∧
    ((Instr.badFrame pBadSum).wellFormed = true ∧ ∃ t, exec (.badFrame pBadSum) (running [] none none) = .next t) ∧
    (∃ t, exec .nodata (running [] none none) = .next t) ∧ ∃ t, exec .unavail (running [] none none) = .next t :=
  ⟨by decide, by decide, by decide, ⟨by decide, _, rfl⟩, ⟨by decide, _, rfl⟩, ⟨by decide, _, rfl⟩, ⟨by decide, _, rfl⟩,
    ⟨_, rfl⟩, _, rfl⟩

theorem witness_RepeatedCo2ValueEmitsOnce :
    ((running [(0x50, 400)] (some 400) none).run = .running ∧
      (∀ i ∈ [wTemp4493, wCo2_400], isPoll i = true) ∧ co2Only cfgT1 400 [wTemp4493, wCo2_400] ∧
      (running [(0x50, 400)] (some 400) none).leCo2 = some 400) ∧
    ((running [] none none).run = .running ∧
      (∀ j ∈ [wTemp4493, wBadSum] ++ wCo2_400 :: [wField41, wCo2_400], isPoll j = true) ∧
      noCo2 cfgT1 [wTemp4493, wBadSum] ∧ fieldOf cfgT1 wCo2_400 = some ⟨0x50, 400⟩ ∧
      co2Only cfgT1 400 [wField41, wCo2_400] ∧ (running [] none none).leCo2 ≠ some 400) := by
  unfold co2Only noCo2; decide

theorem witness_ConsecutiveReadingsDiffer : ∀ i ∈ [wCo2_400, wCo2_401, wCo2_400], decodePort i ≠ .reset := by decide

theorem witness_NoiseDoesNotChangeTheReadings :
    (running [] none none).run = .running ∧ (∀ i ∈ [wBadSum, idleInput, wCo2_400], isPoll i = true) ∧
    [wCo2_400] =
      [wBadSum, idleInput, wCo2_400].filter (fun i => (fieldOf (running [] none none).params i).isSome) := by decide

theorem witness_TableHoldsTheLatestField :
    (running [] none none).run = .running ∧ (∀ i ∈ [wTemp4493, wBadSum], isPoll i = true) ∧
    ∃ t, Sys2Proof.core.run 2 ((running [] none none).presented [wTemp4493, wBadSum]) = .next t :=
  ⟨by decide, by decide, _, rfl⟩

theorem witness_LastEmittedCo2IsTheLastReading :
    (running [] none none).run = .running ∧ (∀ i ∈ [wCo2_400, wTemp4493], isPoll i = true) ∧
    (running [] none none).leCo2 = none ∧
    ∃ t, Sys2Proof.core.run 2 ((running [] none none).presented [wCo2_400, wTemp4493]) = .next t :=
  ⟨by decide, by decide, by decide, _, rfl⟩

theorem witness_ReadingCarriesTheLatestTemperature :
    (running [] none none).run = .running ∧ (∀ j ∈ [wTemp4493], isPoll j = true) ∧
    (∃ t, Sys2Proof.core.run 1 ((running [] none none).presented ([wTemp4493] ++ [wCo2_400])) = .next t ∧
      (output t).reading = some ⟨400, true, 613⟩) ∧
    ∃ t, Sys2Proof.core.run 0 ((running [] none none).presented ([] ++ [wCo2_400])) = .next t ∧
      (output t).reading = some ⟨400, false, 0⟩ :=
  ⟨by decide, by decide, ⟨_, rfl, by decide⟩, _, rfl, by decide⟩

/-- Two running blocks that differ in `LE_TEMP` and in an entry that is not 0x42; and two halted
ones that differ in all the aggregator holds. -/
theorem witness_OutputsDependOnWhatIsRead :
    (∃ s s' : State, s ≠ s' ∧ s.run = .running ∧ s.run = s'.run ∧ s.params = s'.params ∧ s.inputs = s'.inputs ∧
      s.leCo2 = s'.leCo2 ∧ s.val.read 0x42 = s'.val.read 0x42) ∧
    ∃ s s' : State, s ≠ s' ∧ s.run = .halted ∧ s.run = s'.run ∧ s.params = s'.params ∧ s.inputs = s'.inputs :=
  ⟨⟨running [(0x41, 1)] none none, running [] none (some 3), by decide⟩,
    halted, { halted with val := [], leCo2 := none }, by decide⟩

theorem witness_ResetForgetsThePast :
    halted.params = (running [] none none).params ∧ halted.inputs = (running [] none none).inputs ∧
    (∃ t, exec .reset halted = .next t) ∧ ∃ t', exec .reset (running [] none none) = .next t' :=
  ⟨by decide, by decide, ⟨_, rfl⟩, _, rfl⟩

end Sys2Proof.Tests
end

