-- ==== Sys2Proof/Proofs/Encoding.lean ====
section
/-! The port-level operation map and the coverage of the checksum (30_encoding R72, R77). -/

namespace Sys2Proof

/-! The match-and-mask tests of the port-level rows read the bits of the control word. -/

theorem matchesRow_reset (c : BitVec 4) : matchesRow c 0b1000 0b1000 = c.getLsbD 3 := by
  revert c; decide

theorem matchesRow_cancel (c : BitVec 4) : matchesRow c 0b0100 0b1100 = (!c.getLsbD 3 && c.getLsbD 2) := by
  revert c; decide

theorem matchesRow_unavail (c : BitVec 4) :
    matchesRow c 0b0010 0b1110 = (!c.getLsbD 3 && !c.getLsbD 2 && c.getLsbD 1) := by
  revert c; decide

theorem matchesRow_report (c : BitVec 4) : matchesRow c 0b0001 0b1111 = (c == 0b0001) := by
  simp [matchesRow, show c &&& 15#4 = c from BitVec.and_allOnes]

/-- The port-level operation map as a priority chain over the control inputs `rst`, `cancel`, `src_unavail`
(30_encoding R72). -/
theorem decodePort_eq (i : PortInput) :
    decodePort i =
      if i.ctl.getLsbD 3 then .reset
      else if i.ctl.getLsbD 2 then .cancel
      else if i.ctl.getLsbD 1 then .unavail
      else if i.ctl = 0b0001 then .report (unpack i.inData)
      else .nodata := by
  rw [decodePort, matchesRow_reset, matchesRow_cancel, matchesRow_unavail, matchesRow_report]
  cases i.ctl.getLsbD 3 <;> cases i.ctl.getLsbD 2 <;> simp

section
variable {i : PortInput}

theorem decodePort_of_rst (h3 : i.ctl.getLsbD 3 = true) : decodePort i = .reset := by
  rw [decodePort_eq, h3]; rfl

theorem decodePort_of_cancel (h3 : i.ctl.getLsbD 3 = false) (h2 : i.ctl.getLsbD 2 = true) :
    decodePort i = .cancel := by
  rw [decodePort_eq, h3, h2]; rfl

theorem decodePort_of_srcUnavail (h3 : i.ctl.getLsbD 3 = false) (h2 : i.ctl.getLsbD 2 = false)
    (h1 : i.ctl.getLsbD 1 = true) : decodePort i = .unavail := by
  rw [decodePort_eq, h3, h2, h1]; rfl

theorem decodePort_of_inValid (h : i.ctl = 0b0001) : decodePort i = .report (unpack i.inData) := by
  simp [decodePort_eq, h]

theorem decodePort_of_idle (h : i.ctl = 0b0000) : decodePort i = .nodata := by
  simp [decodePort_eq, h]

end

namespace Machine

/-- A halted block keeps its state under every operation but `RESET` (60_exceptions R195). -/
theorem exec_of_halted {i : Instr} {s : State} (h : s.run = .halted) (hi : i ≠ .reset) : exec i s = .next s := by
  rw [exec_eq_cycle, cycle_of_halted h hi, endCycle_state]

/-- A halted block answers `ST_HALTED` to every operation but `RESET` (60_exceptions R195). -/
theorem outputOf_of_halted {i : Instr} {s : State} (h : s.run = .halted) (hi : i ≠ .reset) :
    outputOf i s = ⟨.halted, none⟩ := by
  rw [outputOf, cycle_of_halted h hi, endCycle_out]

/-- CHKSUM in the spec's arithmetic (41_framedecoder R122). -/
theorem chkSum_iff (p : Bytes8) :
    chkSum p = true ↔ p.b3.toNat = (p.b0.toNat + p.b1.toNat + p.b2.toNat) % 256 := by
  rw [chkSum, expectedSum, beq_iff_eq]

/-- CHKSUM reads bytes 0 to 3 alone: frames that agree there agree on it (30_encoding R77). -/
theorem chkSum_congr {p q : Bytes8} (h0 : p.b0 = q.b0) (h1 : p.b1 = q.b1) (h2 : p.b2 = q.b2) (h3 : p.b3 = q.b3) :
    chkSum p = chkSum q := by
  rw [chkSum, chkSum, h0, h1, h2, h3]

/-- Three bytes sum to at most 765 (30_encoding R77). -/
theorem byte_sum_le (a b c : Byte) : a.toNat + b.toNat + c.toNat ≤ 765 := by
  have ha := a.isLt
  have hb := b.isLt
  have hc := c.isLt
  omega

end Machine

/-- Settles O3: the five rows of the operation map as a priority chain, and the guard of a halted block. -/
theorem controlWordSelectsTheOperation : Obligations.ControlWordSelectsTheOperation := by
  constructor
  · intro i
    exact ⟨decodePort_of_rst, decodePort_of_cancel, decodePort_of_srcUnavail, decodePort_of_inValid,
      decodePort_of_idle⟩
  · intro i s hs hi
    exact ⟨Machine.exec_of_halted hs hi, Machine.outputOf_of_halted hs hi⟩

/-- Settles O19: CHKSUM compares byte 3 with the sum of bytes 0 to 2 and reads no other byte. -/
theorem checksumCoversThreeBytes : Obligations.ChecksumCoversThreeBytes := by
  intro p
  exact ⟨Machine.chkSum_iff p, Machine.byte_sum_le p.b0 p.b1 p.b2,
    fun _ _ _ _ => Machine.chkSum_congr rfl rfl rfl rfl⟩

end Sys2Proof
end

