-- ==== Sys2Proof/Proofs/Transform.lean ====
section
/-! The five stages of the Transform, one by one (40_transform R101 to R105). -/

namespace Sys2Proof

theorem Oct.toList_eq_ofFn {α : Type} (o : Oct α) : o.toList = List.ofFn o.get := by
  simp [Oct.toList, List.ofFn_succ, Oct.get]

/-- No position repeats in the list exactly when the positions, as a function of the index, are injective. -/
theorem Oct.nodup_toList_iff {α : Type} (o : Oct α) : o.toList.Nodup ↔ Function.Injective o.get := by
  rw [Oct.toList_eq_ofFn, List.nodup_ofFn]

theorem Shuffle.injective_get (sh : Shuffle) : Function.Injective sh.pos.get :=
  (Oct.nodup_toList_iff sh.pos).mp sh.perm

theorem Shuffle.bijective_get (sh : Shuffle) : Function.Bijective sh.pos.get :=
  Finite.injective_iff_bijective.mp sh.injective_get

/-- The check at configuration time refuses exactly the sequences with a repeated position (40_transform R101). -/
theorem Shuffle.ofPositions?_eq_none_iff (pos : Oct Pos) :
    Shuffle.ofPositions? pos = none ↔ ∃ i j : Pos, i ≠ j ∧ pos.get i = pos.get j := by
  have hnone : Shuffle.ofPositions? pos = none ↔ ¬ Function.Injective pos.get := by
    simp [Shuffle.ofPositions?, Oct.nodup_toList_iff]
  rw [hnone, Function.not_injective_iff]
  exact exists₂_congr fun _ _ => and_comm

namespace Machine

/-! ## UNSHUFFLE -/

/-- A run of the assignments "u[SHUFFLE[i]] = raw[i]" over the indices of `order`, repeats allowed: at the target of `i`
stands `raw[i]` if `i` was assigned, and otherwise what stood there before. -/
theorem foldl_scatter_get (sh : Shuffle) (raw : Bytes8) (order : List Pos) (u0 : Bytes8) (i : Pos) :
    (order.foldl (fun u i => u.set (sh.pos.get i) (raw.get i)) u0).get (sh.pos.get i) =
      if i ∈ order then raw.get i else u0.get (sh.pos.get i) := by
  induction order generalizing u0 with
  | nil => simp
  | cons k rest ih =>
    rw [List.foldl_cons, ih, Oct.get_set]
    by_cases hk : i = k
    · simp [hk]
    · simp [hk, sh.injective_get.eq_iff]

@[simp] theorem unshuffle_get (sh : Shuffle) (raw : Bytes8) (i : Pos) :
    (unshuffle sh raw).get (sh.pos.get i) = raw.get i := by
  rw [unshuffle, foldl_scatter_get, if_pos (mem_positions i)]

/-- The scatter's equations determine its result: each position is the target of some index. -/
theorem eq_unshuffle {sh : Shuffle} {raw u : Bytes8} (h : ∀ i, u.get (sh.pos.get i) = raw.get i) :
    u = unshuffle sh raw := by
  refine Oct.eq_of_get_eq fun j => ?_
  obtain ⟨i, rfl⟩ := sh.bijective_get.surjective j
  rw [h, unshuffle_get]

/-- The order of the assignments and the initial bytes do not matter. -/
theorem foldl_scatter_eq_unshuffle (sh : Shuffle) (raw : Bytes8) (order : List Pos) (u0 : Bytes8)
    (h : order.Perm positions) :
    order.foldl (fun u i => u.set (sh.pos.get i) (raw.get i)) u0 = unshuffle sh raw := by
  refine eq_unshuffle fun i => ?_
  rw [foldl_scatter_get, if_pos (h.mem_iff.mpr (mem_positions i))]

theorem unshuffle_of_identity {sh : Shuffle} (h : ∀ i, sh.pos.get i = i) (raw : Bytes8) : unshuffle sh raw = raw :=
  (eq_unshuffle fun i => by rw [h]).symm

/-- The bytes 0 to 7 in order, which tell the positions apart. -/
def indexBytes : Bytes8 := Oct.ofFn fun i => BitVec.ofNat 8 i.val

theorem indexBytes_injective : Function.Injective indexBytes.get := by decide

/-- Scatter and gather agree exactly for an involution; the bytes 0 to 7 distinguish them otherwise. -/
theorem unshuffle_eq_gather_iff (sh : Shuffle) :
    (∀ raw : Bytes8, unshuffle sh raw = gather sh raw) ↔ ∀ i : Pos, sh.pos.get (sh.pos.get i) = i := by
  constructor
  · intro h i
    apply indexBytes_injective
    rw [← gather_get, ← h, unshuffle_get]
  · intro h raw
    refine (eq_unshuffle fun i => ?_).symm
    rw [gather_get, h]

/-! ## Two shifted bytes combined by OR -/

/-- The 8-bit combination is the masked one on unbounded integers. -/
theorem toNat_shiftRight_or_shiftLeft (a b : Byte) (r l : Nat) :
    ((a >>> r) ||| (b <<< l)).toNat = ((a.toNat >>> r) ||| (b.toNat <<< l)) &&& 0xFF := by
  have ha : a.toNat >>> r < 2 ^ 8 := lt_of_le_of_lt (Nat.shiftRight_le _ _) a.isLt
  rw [BitVec.toNat_or, BitVec.toNat_ushiftRight, BitVec.toNat_shiftLeft, show 0xFF = 2 ^ 8 - 1 from rfl,
    Nat.and_two_pow_sub_one_eq_mod, Nat.or_mod_two_pow, Nat.mod_eq_of_lt ha]

/-- With shifts that add up to 8 the two parts share no bit, so that OR is their sum (40_transform R103). -/
theorem toNat_shiftRight_or_shiftLeft_eq_add (a b : Byte) {r l : Nat} (h : l + r = 8) :
    ((a >>> r) ||| (b <<< l)).toNat = a.toNat / 2 ^ r + (b.toNat % 2 ^ r) * 2 ^ l := by
  have hlow : a.toNat / 2 ^ r < 2 ^ l := by
    rw [Nat.div_lt_iff_lt_mul (Nat.two_pow_pos r), ← pow_add, h]
    exact a.isLt
  have hhigh : b.toNat * 2 ^ l % 2 ^ 8 = 2 ^ l * (b.toNat % 2 ^ r) := by
    rw [show 2 ^ 8 = 2 ^ l * 2 ^ r by rw [← pow_add, h], mul_comm, Nat.mul_mod_mul_left]
  rw [BitVec.toNat_or, BitVec.toNat_ushiftRight, BitVec.toNat_shiftLeft, Nat.shiftRight_eq_div_pow,
    Nat.shiftLeft_eq, hhigh, Nat.or_comm, ← Nat.two_pow_add_eq_or_of_lt hlow]
  ring

/-! ## ROTMIX -/

/-- The predecessor modulo 8 is the model's `i - 1` (40_transform R103). -/
theorem eq_sub_one_of_val_eq {i j : Pos} (h : j.val = (i.val + 7) % 8) : j = i - 1 := by
  revert i j; decide

theorem rotMix_get_toNat (x : Bytes8) (i : Pos) :
    ((rotMix x).get i).toNat = (x.get i).toNat / 8 + ((x.get (i - 1)).toNat % 8) * 32 := by
  rw [rotMix_get]
  exact toNat_shiftRight_or_shiftLeft_eq_add _ _ rfl

/-- `m[i][4:0] = x[i][7:3]`. -/
theorem rotMix_get_low (x : Bytes8) (i : Pos) :
    ((rotMix x).get i).extractLsb' 0 5 = (x.get i).extractLsb' 3 5 := by
  apply BitVec.eq_of_toNat_eq
  simp only [BitVec.extractLsb'_toNat, rotMix_get_toNat, Nat.shiftRight_eq_div_pow]
  omega

/-- `m[i][7:5] = x[(i-1) mod 8][2:0]`. -/
theorem rotMix_get_high (x : Bytes8) (i : Pos) :
    ((rotMix x).get i).extractLsb' 5 3 = (x.get (i - 1)).extractLsb' 0 3 := by
  have hlt := (x.get i).isLt
  apply BitVec.eq_of_toNat_eq
  simp only [BitVec.extractLsb'_toNat, rotMix_get_toNat, Nat.shiftRight_eq_div_pow]
  omega

/-! ## NIBSWAP -/

theorem nibSwapByte_toNat (b : Byte) : (nibSwapByte b).toNat = b.toNat / 16 + (b.toNat % 16) * 16 :=
  toNat_shiftRight_or_shiftLeft_eq_add b b rfl

@[simp] theorem nibSwapByte_nibSwapByte (b : Byte) : nibSwapByte (nibSwapByte b) = b := by
  have hlt := b.isLt
  apply BitVec.eq_of_toNat_eq
  rw [nibSwapByte_toNat, nibSwapByte_toNat]
  omega

@[simp] theorem nibSwap_nibSwap (c : Bytes8) : nibSwap (nibSwap c) = c :=
  Oct.eq_of_get_eq fun i => by rw [nibSwap_get, nibSwap_get, nibSwapByte_nibSwapByte]

/-! ## MODSUB -/

theorem modSub_get_toNat (m ns : Bytes8) (i : Pos) :
    ((modSub m ns).get i).toNat = (256 + (m.get i).toNat - (ns.get i).toNat) % 256 := by
  rw [modSub, Oct.get_ofFn, BitVec.toNat_ofNat, Nat.mod_mod]

@[simp] theorem modSub_get (m ns : Bytes8) (i : Pos) : (modSub m ns).get i = m.get i - ns.get i := by
  have hlt := (ns.get i).isLt
  apply BitVec.eq_of_toNat_eq
  rw [modSub_get_toNat, BitVec.toNat_sub]
  omega

/-- The residue of the integer difference: the 256 added before the reduction keeps the natural subtraction exact. -/
theorem modSub_get_toInt (m ns : Bytes8) (i : Pos) :
    (((modSub m ns).get i).toNat : Int) = ((m.get i).toNat - (ns.get i).toNat : Int) % 256 := by
  have hlt := (ns.get i).isLt
  rw [modSub_get_toNat]
  omega

end Machine

/-- Settles O9: the scatter's equations hold and determine its result, whatever the order of the assignments. -/
theorem unshuffleScattersByShuffle : Obligations.UnshuffleScattersByShuffle := by
  refine ⟨fun sh raw => ?_, Machine.unshuffle_eq_gather_iff, Shuffle.ofPositions?_eq_none_iff⟩
  exact ⟨Machine.unshuffle_get sh raw, sh.bijective_get.existsUnique, Machine.foldl_scatter_eq_unshuffle sh raw,
    fun h => Machine.unshuffle_of_identity h raw⟩

/-- Settles O11: the shifts 3 and 5 add up to 8, so that the parts of the OR share no bit. -/
theorem rotMixCombinesWithThePreviousByte : Obligations.RotMixCombinesWithThePreviousByte := by
  intro x i j hj
  obtain rfl := Machine.eq_sub_one_of_val_eq hj
  refine ⟨?_, Machine.rotMix_get_toNat x i, Machine.rotMix_get_low x i, Machine.rotMix_get_high x i⟩
  rw [Machine.rotMix_get, Machine.toNat_shiftRight_or_shiftLeft]

/-- Settles O10: XOR of a byte with itself is zero, and with zero is the byte. -/
theorem xorKeyIsByteWise : Obligations.XorKeyIsByteWise := by
  intro key u i
  refine ⟨Machine.xorKey_get key u i, ?_, fun hzero => ?_⟩
  · rw [Machine.xorKey_get]
    exact BitVec.xor_self
  · rw [Machine.xorKey_get, hzero]
    exact BitVec.xor_zero

/-- Settles O12: the shifts 4 and 4 add up to 8, so that the parts of the OR share no bit. -/
theorem nibSwapSwapsNibbles : Obligations.NibSwapSwapsNibbles := by
  intro c i
  refine ⟨?_, ?_, Machine.nibSwap_nibSwap c⟩
  · rw [Machine.nibSwap_get, Machine.nibSwapByte, Machine.toNat_shiftRight_or_shiftLeft]
  · rw [Machine.nibSwap_get, Machine.nibSwapByte_toNat]

/-- Settles O13: the sum `256 + m[i]` exceeds `ns[i]`, so that nothing is cut off before the reduction. -/
theorem modSubSubtractsModulo256 : Obligations.ModSubSubtractsModulo256 := by
  intro m ns i
  exact ⟨Machine.modSub_get_toNat m ns i, Machine.modSub_get_toInt m ns i, Machine.modSub_get m ns i⟩

end Sys2Proof
end

