-- ==== Sys2Proof/Proofs/FrameDecoder.lean ====
section
/-! The FrameDecoder and the rows of the frame-level map that a failed check leaves (41_framedecoder R121 to R130). -/

namespace Sys2Proof

namespace Machine

/-! ## The two checks -/

/-- CHKTERM in the spec's own words (41_framedecoder R121). -/
theorem chkTerm_iff (p : Bytes8) : chkTerm p = true ↔ p.b4 = 0x0D := by
  rw [chkTerm, Config.terminator, beq_iff_eq]

theorem passesChecks_iff (p : Bytes8) : passesChecks p ↔ chkTerm p = true ∧ chkSum p = true := by
  rw [passesChecks, chkTerm_iff, chkSum_iff]

/-- A frame is invalid by its terminator, by its checksum, or by both (41_framedecoder R123). -/
theorem not_passesChecks_iff (p : Bytes8) :
    ¬ passesChecks p ↔ p.b4 ≠ 0x0D ∨ p.b3.toNat ≠ (p.b0.toNat + p.b1.toNat + p.b2.toNat) % 256 :=
  Classical.not_and_iff_not_or_not

/-! ## DECODE -/

/-- The value of a field, big-endian: the shifted high byte and the low byte share no bit (41_framedecoder R124). -/
theorem valueOf_toNat (vh vl : Byte) : (valueOf vh vl).toNat = 256 * vh.toNat + vl.toNat := by
  have hh := vh.isLt
  have hl := vl.isLt
  have hhigh : (vh.setWidth 16 <<< 8).toNat = vh.toNat <<< 8 := by
    rw [BitVec.toNat_shiftLeft, BitVec.toNat_setWidth, Nat.shiftLeft_eq]
    omega
  have hlow : (vl.setWidth 16).toNat = vl.toNat := by
    rw [BitVec.toNat_setWidth]
    omega
  rw [valueOf, BitVec.toNat_or, hhigh, hlow, ← Nat.shiftLeft_add_eq_or_of_lt hl, Nat.shiftLeft_eq, mul_comm]

theorem decodeReport_of_passesChecks {p : Bytes8} (h : passesChecks p) : decodeReport p = .ok (extractField p) := by
  obtain ⟨_, _, hok⟩ | ⟨hfail, _⟩ := decodeReport_cases p
  · exact hok
  · exact absurd ((passesChecks_iff p).mp h) hfail

theorem decodeReport_of_not_passesChecks {p : Bytes8} (h : ¬ passesChecks p) :
    decodeReport p = .error .checksumFailed := by
  obtain ⟨hterm, hsum, _⟩ | ⟨_, herror⟩ := decodeReport_cases p
  · exact absurd ((passesChecks_iff p).mpr ⟨hterm, hsum⟩) h
  · exact herror

/-! ## The frame-level map -/

/-- The sum test of the `OBS` rows is CHKSUM of the packed frame (30_encoding R77). -/
theorem frameSumOk_pack (p : Bytes8) : frameSumOk (pack p) = chkSum p := by
  rw [Bool.eq_iff_iff, chkSum_iff, frameSumOk, unpack_pack, beq_iff_eq, ← BitVec.toNat_inj, BitVec.toNat_add,
    BitVec.toNat_add, Nat.mod_add_mod]

/-- The frame-level map by the two checks and the code: the three `OBS` rows share both tests (30_encoding R78). -/
theorem decodeFrame_pack (p : Bytes8) :
    decodeFrame (pack p) =
      if chkTerm p && chkSum p then
        if p.b0 = Config.codeCo2 then .obsCo2 (frameValue (pack p)) p.b5 p.b6 p.b7
        else if p.b0 = Config.codeTemp then .obsTemp (frameValue (pack p)) p.b5 p.b6 p.b7
        else .obsOther p.b0 (frameValue (pack p)) p.b5 p.b6 p.b7
      else .badFrame p := by
  have hco2 := matchesRow_code Config.codeCo2 0x500000000D000000 (by decide) (pack p)
  have htemp := matchesRow_code Config.codeTemp 0x420000000D000000 (by decide) (pack p)
  have hterm : (p.b4 == 0x0D) = chkTerm p := rfl
  rw [unpack_pack, hterm] at hco2 htemp
  rw [decodeFrame, hco2, htemp, matchesRow_term, frameSumOk_pack, unpack_pack, hterm, Bool.and_assoc, Bool.and_assoc]
  cases chkTerm p && chkSum p with
  | true => simp
  | false => simp

/-- No `OBS` row takes a frame that fails a check, so that the last row does (41_framedecoder R129). -/
theorem decodeFrame_pack_of_not_passesChecks {p : Bytes8} (h : ¬ passesChecks p) :
    decodeFrame (pack p) = .badFrame p := by
  rw [passesChecks_iff, ← Bool.and_eq_true] at h
  rw [decodeFrame_pack, if_neg h]

/-! ## The cycle of a failed check -/

/-- An operation whose cycle is an error answers its state and the error's status alone (60_exceptions R197). -/
theorem exec_and_outputOf_of_raiseError {i : Instr} {e : ErrorKind} {s : State} (h : cycle i s = raiseError e s) :
    exec i s = .next s ∧ outputOf i s = ⟨e.status, none⟩ := by
  rw [exec_eq_cycle, outputOf, h]
  exact ⟨rfl, rfl⟩

theorem cycle_badFrame_of_running {s : State} (hrun : s.run = .running) (p : Bytes8) :
    cycle (.badFrame p) s = raiseError .checksumFailed s :=
  whileRunning_of_running _ hrun

/-- A `REPORT` whose plaintext fails a check ends at the FrameDecoder (41_framedecoder R123). -/
theorem cycle_report_of_not_passesChecks {s : State} (hrun : s.run = .running) {raw : Bytes8}
    (h : ¬ passesChecks (transform s.params raw)) : cycle (.report raw) s = raiseError .checksumFailed s := by
  have herror := decodeReport_of_not_passesChecks h
  rw [cycle, reportCycle, whileRunning_of_running _ hrun, pipeline, herror]

end Machine

/-- Settles O6: whichever check fails, the frame is not one that passes both. -/
theorem eitherFailedCheckDiscardsTheReport : Obligations.EitherFailedCheckDiscardsTheReport := by
  intro p hfail
  have h := (Machine.not_passesChecks_iff p).mpr hfail
  refine ⟨Machine.decodeReport_of_not_passesChecks h, Machine.decodeFrame_pack_of_not_passesChecks h, ?_⟩
  rintro raw s hrun rfl
  exact Machine.exec_and_outputOf_of_raiseError (Machine.cycle_report_of_not_passesChecks hrun h)

/-- Settles O17: DECODE by whether the frame passes both checks, and its value on unbounded integers. -/
theorem decoderAcceptsExactlyTheValidFrames : Obligations.DecoderAcceptsExactlyTheValidFrames := by
  intro p
  constructor
  · intro hfail
    exact Machine.decodeReport_of_not_passesChecks ((Machine.not_passesChecks_iff p).mpr hfail)
  · intro hterm hsum
    exact ⟨_, Machine.valueOf_toNat p.b1 p.b2, Machine.decodeReport_of_passesChecks ⟨hterm, hsum⟩⟩

/-- Settles O29: the last row of the frame-level map, and its cycle, which is the error. -/
theorem badFrameChangesNothing : Obligations.BadFrameChangesNothing := by
  constructor
  · intro p
    exact Machine.decodeFrame_pack_of_not_passesChecks
  · intro p s hrun
    exact Machine.exec_and_outputOf_of_raiseError (Machine.cycle_badFrame_of_running hrun p)

end Sys2Proof
end

