-- ==== Sys2Proof/Proofs/Aggregator.lean ====
section
/-! The ReadingAggregator: one field (42_aggregator R160 to R162), and a run of polls in which no CO2 field is new
(42_aggregator R152). -/

namespace Sys2Proof

namespace Machine

/-! ## OBSERVE, case by case -/

/-- A CO2 field stores before it emits, but not the entry that the emission reads (42_aggregator R146). -/
theorem observeCycle_of_new {s : State} {v : U16} (h : s.leCo2 ≠ some v) :
    observeCycle Config.codeCo2 v s =
      endCycle .emit (some (buildReading v (s.val.read Config.codeTemp)))
        { s with val := s.val.write Config.codeCo2 v, leCo2 := some v, leTemp := s.val.read Config.codeTemp } := by
  have hread := Memory.read_write_other s.val Config.codeCo2 Config.codeTemp v (by decide)
  obtain ⟨_, _, hcycle⟩ | ⟨hold, _⟩ := observeCycle_cases Config.codeCo2 v s
  · rw [hcycle, hread]
    rfl
  · exact absurd ⟨rfl, h⟩ hold

/-- A field that is no CO2 field, or carries the last emitted value, is stored and no more (42_aggregator R145). -/
theorem observeCycle_of_not_new {s : State} {code : Byte} {v : U16} (h : code = Config.codeCo2 → s.leCo2 = some v) :
    observeCycle code v s = endCycle .stored none (store code v s) := by
  obtain ⟨hcode, hnew, _⟩ | ⟨_, hcycle⟩ := observeCycle_cases code v s
  · exact absurd (h hcode) hnew
  · exact hcycle

/-! ## The cycles of the three `OBS` operations -/

/-- What `exec` and the ports show of an operation, from its cycle. -/
theorem exec_and_outputOf_of_cycle {i : Instr} {s t : State} {status : Status} {r : Option Reading}
    (h : cycle i s = endCycle status r t) : exec i s = .next t ∧ outputOf i s = ⟨status, r⟩ := by
  rw [exec_eq_cycle, outputOf, h]
  exact ⟨rfl, rfl⟩

theorem cycle_obsCo2_of_running {s : State} (hrun : s.run = .running) (v : U16) (u5 u6 u7 : Byte) :
    cycle (.obsCo2 v u5 u6 u7) s = observeCycle Config.codeCo2 v s :=
  whileRunning_of_running _ hrun

theorem cycle_obsTemp_of_running {s : State} (hrun : s.run = .running) (v : U16) (u5 u6 u7 : Byte) :
    cycle (.obsTemp v u5 u6 u7) s = observeCycle Config.codeTemp v s :=
  whileRunning_of_running _ hrun

theorem cycle_obsOther_of_running {s : State} (hrun : s.run = .running) (code : Byte) (v : U16) (u5 u6 u7 : Byte) :
    cycle (.obsOther code v u5 u6 u7) s = observeCycle code v s :=
  whileRunning_of_running _ hrun

theorem obsCo2_of_new {s : State} (hrun : s.run = .running) {v : U16} (h : s.leCo2 ≠ some v) (u5 u6 u7 : Byte) :
    exec (.obsCo2 v u5 u6 u7) s =
      .next { s with val := s.val.write 0x50 v, leCo2 := some v, leTemp := s.val.read 0x42 } ∧
    outputOf (.obsCo2 v u5 u6 u7) s = ⟨.emit, some (buildReading v (s.val.read 0x42))⟩ :=
  exec_and_outputOf_of_cycle ((cycle_obsCo2_of_running hrun v u5 u6 u7).trans (observeCycle_of_new h))

theorem obsCo2_of_not_new {s : State} (hrun : s.run = .running) {v : U16} (h : s.leCo2 = some v) (u5 u6 u7 : Byte) :
    exec (.obsCo2 v u5 u6 u7) s = .next { s with val := s.val.write 0x50 v } ∧
    outputOf (.obsCo2 v u5 u6 u7) s = ⟨.stored, none⟩ :=
  exec_and_outputOf_of_cycle ((cycle_obsCo2_of_running hrun v u5 u6 u7).trans (observeCycle_of_not_new fun _ => h))

/-- A CO2 field is in the table after its cycle, emitted or not (42_aggregator R141). -/
theorem read_co2_of_exec_obsCo2 {s t : State} (hrun : s.run = .running) {v : U16} {u5 u6 u7 : Byte}
    (h : exec (.obsCo2 v u5 u6 u7) s = .next t) : t.val.read Config.codeCo2 = some v := by
  have hwritten := Memory.read_write_same s.val Config.codeCo2 v
  by_cases hle : s.leCo2 = some v
  · rw [(obsCo2_of_not_new hrun hle u5 u6 u7).1] at h
    cases h
    exact hwritten
  · rw [(obsCo2_of_new hrun hle u5 u6 u7).1] at h
    cases h
    exact hwritten

theorem obsTemp_of_running {s : State} (hrun : s.run = .running) (v : U16) (u5 u6 u7 : Byte) :
    exec (.obsTemp v u5 u6 u7) s = .next { s with val := s.val.write 0x42 v } ∧
    outputOf (.obsTemp v u5 u6 u7) s = ⟨.stored, none⟩ :=
  exec_and_outputOf_of_cycle ((cycle_obsTemp_of_running hrun v u5 u6 u7).trans
    (observeCycle_of_not_new fun hcode => absurd hcode (by decide)))

theorem obsOther_of_running {s : State} (hrun : s.run = .running) {code : Byte} (hcode : code ≠ 0x50) (v : U16)
    (u5 u6 u7 : Byte) :
    exec (.obsOther code v u5 u6 u7) s = .next { s with val := s.val.write code v } ∧
    outputOf (.obsOther code v u5 u6 u7) s = ⟨.stored, none⟩ :=
  exec_and_outputOf_of_cycle ((cycle_obsOther_of_running hrun code v u5 u6 u7).trans
    (observeCycle_of_not_new fun h => absurd h hcode))

/-! ## The Reading and the phase -/

@[simp] theorem buildReading_co2 (v : U16) (t : Option U16) : (buildReading v t).co2 = v := rfl

/-- With no temperature observed the Reading's is unset and 0 (42_aggregator R147). -/
theorem buildReading_none (v : U16) : buildReading v none = ⟨v, false, 0⟩ := rfl

/-- The last known temperature goes through TCONV (42_aggregator R143, R146). -/
theorem buildReading_some (v tv : U16) : buildReading v (some tv) = ⟨v, true, 5 * (tv.toNat : Int) - 21852⟩ := rfl

theorem phase_eq_idle_iff (s : State) : phase s = .idle ↔ s.val.read Config.codeCo2 = none := by
  rw [phase, memRead_eq]
  cases s.val.read Config.codeCo2 with
  | none => simp
  | some v => simp

theorem phase_of_read_eq_some {s : State} {v : U16} (h : s.val.read Config.codeCo2 = some v) : phase s = .active := by
  rw [phase, memRead_eq, h]

/-- The phase is read off `VAL[0x50]` alone (10_state R25). -/
theorem phase_congr {s t : State} (h : t.val.read Config.codeCo2 = s.val.read Config.codeCo2) : phase t = phase s := by
  rw [phase, phase, memRead_eq, memRead_eq, h]

/-- INV1 in phase Idle: nothing was emitted yet (10_state R37). -/
theorem leCo2_eq_none_of_idle {s : State} (hinv : s.aggregatorInv = true) (hidle : phase s = .idle) :
    s.leCo2 = none := by
  rw [State.aggregatorInv, Bool.and_eq_true, decide_eq_true_eq] at hinv
  obtain ⟨hinv1, _⟩ := hinv
  rw [hinv1, memRead_eq]
  exact (phase_eq_idle_iff s).mp hidle

/-! ## One poll of a running block -/

theorem decodePort_of_isPoll {i : PortInput} (h : isPoll i = true) :
    decodePort i = .unavail ∨ (∃ raw, decodePort i = .report raw) ∨ decodePort i = .nodata := by
  rw [isPoll, Bool.and_eq_true, bne_iff_ne, bne_iff_ne] at h
  obtain ⟨hreset, hcancel⟩ := h
  have hop := decodePort_eq i
  split_ifs at hop
  · exact absurd hop hreset
  · exact absurd hop hcancel
  · exact .inl hop
  · exact .inr (.inl ⟨_, hop⟩)
  · exact .inr (.inr hop)

/-- A sample delivers a field exactly as a `REPORT` whose plaintext the FrameDecoder accepts (43_pipeline R172). -/
theorem fieldOf_eq_some_iff (c : Params) (i : PortInput) (f : DecodedField) :
    fieldOf c i = some f ↔ ∃ raw, decodePort i = .report raw ∧ decodeReport (transform c raw) = .ok f := by
  rw [fieldOf]
  cases decodePort i with
  | report raw => cases hdec : decodeReport (transform c raw) <;> simp [hdec]
  | _ => simp

/-- A poll with a field is an OBSERVE of that field. -/
theorem cycle_of_field {s : State} (hrun : s.run = .running) {i : PortInput} {f : DecodedField}
    (h : fieldOf s.params i = some f) : cycle (decodePort i) s = observeCycle f.code f.value s := by
  obtain ⟨raw, hop, hdec⟩ := (fieldOf_eq_some_iff _ _ _).mp h
  rw [hop, cycle, reportCycle, whileRunning_of_running _ hrun, pipeline, hdec]

/-- A poll without a field, be it empty, an outage or an invalid frame, keeps the state and shows no Reading. -/
theorem cycle_of_no_field {s : State} (hrun : s.run = .running) {i : PortInput} (hpoll : isPoll i = true)
    (h : fieldOf s.params i = none) : ∃ status, cycle (decodePort i) s = endCycle status none s := by
  obtain hop | ⟨raw, hop⟩ | hop := decodePort_of_isPoll hpoll
  · exact ⟨_, by rw [hop, cycle, unavailCycle, whileRunning_of_running _ hrun, raiseError]⟩
  · obtain ⟨f, hdec, _⟩ | ⟨_, hpipe⟩ := pipeline_cases raw s
    · rw [(fieldOf_eq_some_iff _ _ f).mpr ⟨raw, hop, hdec⟩] at h
      cases h
    · exact ⟨_, by rw [hop, cycle, reportCycle, whileRunning_of_running _ hrun, hpipe, raiseError]⟩
  · exact ⟨_, by rw [hop, cycle, nodataCycle, whileRunning_of_running _ hrun]⟩

/-! ## The Readings of a run, sample by sample -/

/-- The Readings of a run whose first cycle is known. -/
theorem readings_succ_of_cycle {s t : State} {i : PortInput} {rest : List PortInput} {status : Status}
    {r : Option Reading} (h : cycle (decodePort i) (s.presented rest) = endCycle status r t) (k : Nat) :
    readings (k + 1) (s.presented (i :: rest)) = r.toList ++ readings k t := by
  have htake : takeInput (s.presented (i :: rest)) = (i, s.presented rest) := takeInput_cons rfl
  obtain ⟨hexec, hout⟩ := exec_and_outputOf_of_cycle h
  have hstep : step (s.presented (i :: rest)) = .next t := by rw [step, htake, hexec]
  have houtput : output (s.presented (i :: rest)) = ⟨status, r⟩ := by rw [output, htake, hout]
  rw [readings, trace, hstep, houtput]
  cases r with
  | none => rfl
  | some r => rfl

section
variable {s : State} (hrun : s.run = .running) {i : PortInput} (rest : List PortInput) (k : Nat)
include hrun

theorem readings_of_no_field (hpoll : isPoll i = true) (h : fieldOf s.params i = none) :
    readings (k + 1) (s.presented (i :: rest)) = readings k (s.presented rest) := by
  obtain ⟨_, hcycle⟩ := cycle_of_no_field (s := s.presented rest) hrun hpoll h
  exact readings_succ_of_cycle hcycle k

theorem readings_of_field_not_new {f : DecodedField} (h : fieldOf s.params i = some f)
    (hold : f.code = Config.codeCo2 → s.leCo2 = some f.value) :
    readings (k + 1) (s.presented (i :: rest)) = readings k ((store f.code f.value s).presented rest) :=
  readings_succ_of_cycle
    ((cycle_of_field (s := s.presented rest) hrun h).trans (observeCycle_of_not_new hold)) k

theorem readings_of_new_co2 {v : U16} (h : fieldOf s.params i = some ⟨Config.codeCo2, v⟩) (hnew : s.leCo2 ≠ some v) :
    readings (k + 1) (s.presented (i :: rest)) =
      buildReading v (s.val.read Config.codeTemp) ::
        readings k (State.presented
          { s with val := s.val.write Config.codeCo2 v, leCo2 := some v, leTemp := s.val.read Config.codeTemp } rest) :=
  readings_succ_of_cycle
    ((cycle_of_field (s := s.presented rest) hrun h).trans (observeCycle_of_new (s := s.presented rest) hnew)) k

end

/-! ## Runs in which no CO2 field is new -/

/-- No CO2 field among these samples differs from the last emitted value. -/
def noNewCo2 (c : Params) (leCo2 : Option U16) (ins : List PortInput) : Prop :=
  ∀ f ∈ fieldsOf c ins, f.code = Config.codeCo2 → leCo2 = some f.value

theorem noNewCo2_of_noCo2 {c : Params} {ins : List PortInput} (h : noCo2 c ins) (le : Option U16) :
    noNewCo2 c le ins :=
  fun f hf hcode => absurd hcode (h f hf)

theorem noNewCo2_of_co2Only {c : Params} {v : U16} {ins : List PortInput} (h : co2Only c v ins) :
    noNewCo2 c (some v) ins :=
  fun f hf hcode => congrArg some (h f hf hcode).symm

theorem noNewCo2_cons_iff (c : Params) (le : Option U16) (i : PortInput) (rest : List PortInput) :
    noNewCo2 c le (i :: rest) ↔
      (∀ f, fieldOf c i = some f → f.code = Config.codeCo2 → le = some f.value) ∧ noNewCo2 c le rest := by
  simp only [noNewCo2, fieldsOf, List.filterMap_cons]
  cases fieldOf c i with
  | none => simp
  | some f => simp

/-- One poll without a new CO2 field emits nothing and keeps `LE_CO2`. -/
theorem exists_readings_cons_of_not_new {s : State} (hrun : s.run = .running) {i : PortInput}
    (hpoll : isPoll i = true)
    (h : ∀ f, fieldOf s.params i = some f → f.code = Config.codeCo2 → s.leCo2 = some f.value) :
    ∃ t : State, t.run = .running ∧ t.params = s.params ∧ t.leCo2 = s.leCo2 ∧
      ∀ k rest, readings (k + 1) (s.presented (i :: rest)) = readings k (t.presented rest) := by
  cases hf : fieldOf s.params i with
  | none => exact ⟨s, hrun, rfl, rfl, fun k rest => readings_of_no_field hrun rest k hpoll hf⟩
  | some f =>
    exact ⟨store f.code f.value s, hrun, rfl, rfl,
      fun k rest => readings_of_field_not_new hrun rest k hf (h f hf)⟩

/-- Over polls without a new CO2 field nothing is emitted and `LE_CO2` stays, so that the Readings are those of the
samples that follow. -/
theorem exists_readings_append_of_noNewCo2 (pre : List PortInput) {s : State} (hrun : s.run = .running)
    (hpoll : ∀ i ∈ pre, isPoll i = true) (h : noNewCo2 s.params s.leCo2 pre) :
    ∃ t : State, t.run = .running ∧ t.params = s.params ∧ t.leCo2 = s.leCo2 ∧
      ∀ k rest, readings (pre.length + k) (s.presented (pre ++ rest)) = readings k (t.presented rest) := by
  induction pre generalizing s with
  | nil => exact ⟨s, hrun, rfl, rfl, fun k rest => by rw [List.length_nil, Nat.zero_add, List.nil_append]⟩
  | cons i pre ih =>
    obtain ⟨hpolli, hpollpre⟩ := List.forall_mem_cons.mp hpoll
    obtain ⟨hi, hpre⟩ := (noNewCo2_cons_iff _ _ _ _).mp h
    obtain ⟨u, hurun, huparams, hule, hu⟩ := exists_readings_cons_of_not_new hrun hpolli hi
    obtain ⟨t, htrun, htparams, htle, ht⟩ := ih hurun hpollpre (by rwa [huparams, hule])
    refine ⟨t, htrun, htparams.trans huparams, htle.trans hule, fun k rest => ?_⟩
    rw [List.length_cons, Nat.succ_add, List.cons_append, hu, ht]

theorem readings_eq_nil_of_noNewCo2 {s : State} (hrun : s.run = .running) {ins : List PortInput}
    (hpoll : ∀ i ∈ ins, isPoll i = true) (h : noNewCo2 s.params s.leCo2 ins) :
    readings ins.length (s.presented ins) = [] := by
  obtain ⟨t, _, _, _, ht⟩ := exists_readings_append_of_noNewCo2 ins hrun hpoll h
  have hnil := ht 0 []
  rwa [List.append_nil] at hnil

/-- A new CO2 field followed by polls that repeat its value: the one Reading of the field (42_aggregator R152). -/
theorem readings_of_new_co2_of_co2Only {s : State} (hrun : s.run = .running) {v : U16} {i : PortInput}
    (h : fieldOf s.params i = some ⟨Config.codeCo2, v⟩) (hnew : s.leCo2 ≠ some v) {post : List PortInput}
    (hpoll : ∀ j ∈ post, isPoll j = true) (hpost : co2Only s.params v post) :
    readings (post.length + 1) (s.presented (i :: post)) = [buildReading v (s.val.read Config.codeTemp)] := by
  rw [readings_of_new_co2 hrun _ _ h hnew]
  refine congrArg (_ :: ·) (readings_eq_nil_of_noNewCo2 ?_ hpoll ?_)
  · exact hrun
  · exact noNewCo2_of_co2Only hpost

end Machine

/-- Settles O30: by whether the value is the last emitted one; in phase Idle, by INV1, nothing was emitted yet. -/
theorem co2FieldEmitsWhenNewOrChanged : Obligations.Co2FieldEmitsWhenNewOrChanged := by
  intro s v u5 u6 u7 hrun
  refine ⟨fun hnew => ?_, fun hold => Machine.obsCo2_of_not_new hrun hold u5 u6 u7, fun t ht => ?_,
    fun hinv hidle => ?_⟩
  · obtain ⟨hexec, hout⟩ := Machine.obsCo2_of_new hrun hnew u5 u6 u7
    refine ⟨_, hexec, hout, Machine.buildReading_co2 _ _, fun hnone => ?_, fun tv htv => ?_⟩
    · rw [hnone, Machine.buildReading_none]
      exact ⟨rfl, rfl⟩
    · rw [htv, Machine.buildReading_some]
      exact ⟨rfl, rfl⟩
  · exact Machine.phase_of_read_eq_some (Machine.read_co2_of_exec_obsCo2 hrun ht)
  · have hnew : s.leCo2 ≠ some v := by simp [Machine.leCo2_eq_none_of_idle hinv hidle]
    rw [(Machine.obsCo2_of_new hrun hnew u5 u6 u7).2]

/-- Settles O31: the temperature's entry is not the one that the phase is read off, and is the one that EMIT reads. -/
theorem temperatureFieldIsStoredOnly : Obligations.TemperatureFieldIsStoredOnly := by
  intro s v u5 u6 u7 hrun
  obtain ⟨hexec, hout⟩ := Machine.obsTemp_of_running hrun v u5 u6 u7
  refine ⟨hexec, hout, fun t ht => ?_⟩
  rw [hexec] at ht
  cases ht
  refine ⟨Machine.phase_congr (Machine.Memory.read_write_other _ _ _ _ (by decide)), fun w hnew => ?_⟩
  have hco2 := (Machine.obsCo2_of_new (s := { s with val := s.val.write 0x42 v }) hrun hnew u5 u6 u7).2
  rw [hco2, Machine.Memory.read_write_same, Machine.buildReading_some]

/-- Settles O32: EMITCOND asks for the CO2 code. -/
theorem unknownFieldIsStoredOnly : Obligations.UnknownFieldIsStoredOnly := by
  intro s code v u5 u6 u7 hrun hco2 _
  exact Machine.obsOther_of_running hrun hco2 v u5 u6 u7

/-- Settles O48: the polls before the first CO2 field leave `LE_CO2` alone, the field emits, and from then on `LE_CO2` is
the value that every later CO2 field repeats. -/
theorem repeatedCo2ValueEmitsOnce : Obligations.RepeatedCo2ValueEmitsOnce := by
  intro s v hrun
  constructor
  · intro ins hpoll hco2 hle
    exact Machine.readings_eq_nil_of_noNewCo2 hrun hpoll (hle ▸ Machine.noNewCo2_of_co2Only hco2)
  · intro pre post i hpoll hpre hi hpost hnew
    obtain ⟨hpollpre, hpollrest⟩ := List.forall_mem_append.mp hpoll
    obtain ⟨_, hpollpost⟩ := List.forall_mem_cons.mp hpollrest
    have hquiet := Machine.noNewCo2_of_noCo2 hpre s.leCo2
    obtain ⟨t, htrun, htparams, htle, ht⟩ := Machine.exists_readings_append_of_noNewCo2 pre hrun hpollpre hquiet
    rw [← htparams] at hi hpost
    rw [← htle] at hnew
    refine ⟨ht 0 _, Machine.buildReading v (t.val.read Config.codeTemp), rfl, ?_, ?_⟩
    · rw [ht]
      exact Machine.readings_of_new_co2 htrun post 0 hi hnew
    · rw [List.length_append, ht]
      exact Machine.readings_of_new_co2_of_co2Only htrun hi hnew hpollpost hpost

end Sys2Proof
end

/-! The two polls of a running block that bring no report: empty and unavailable (43_pipeline R171, R173). -/

namespace Sys2Proof

namespace Machine

theorem cycle_nodata_of_running {s : State} (hrun : s.run = .running) :
    cycle .nodata s = endCycle .noData none s :=
  whileRunning_of_running _ hrun

theorem cycle_unavail_of_running {s : State} (hrun : s.run = .running) :
    cycle .unavail s = raiseError .sourceUnavailable s :=
  whileRunning_of_running _ hrun

end Machine

/-- Settles O24: the cycle of an empty poll ends where it began, and the last row of the operation map reads the control
word alone. -/
theorem nodataIsANoOp : Obligations.NodataIsANoOp := by
  constructor
  · intro s hrun
    exact Machine.exec_and_outputOf_of_cycle (Machine.cycle_nodata_of_running hrun)
  · intro d
    exact decodePort_of_idle rfl

/-- Settles O25: the cycle of an outage is the error, and `src_unavail` without `rst` and `cancel` selects it, whatever
`in_valid` is. -/
theorem unavailReportsAndKeepsTheState : Obligations.UnavailReportsAndKeepsTheState := by
  constructor
  · intro s hrun
    exact Machine.exec_and_outputOf_of_raiseError (Machine.cycle_unavail_of_running hrun)
  · intro d
    constructor
    · exact decodePort_of_srcUnavail (by simp) (by simp) (by simp)
    · exact decodePort_of_srcUnavail (by simp) (by simp) (by simp)

end Sys2Proof

/-! RESET (70_reset_and_hazards R220), and the parameters over a run (70_reset_and_hazards R223). -/

namespace Sys2Proof

namespace Machine

/-! ## RESET -/

/-- The cycle of `RESET` has no guard: it is the same in either run state (70_reset_and_hazards R220). -/
theorem cycle_reset (s : State) : cycle .reset s = endCycle .reset none (installReset s) := rfl

theorem exec_reset_eq_next_iff (s t : State) : exec .reset s = .next t ↔ installReset s = t := by
  rw [exec_eq_cycle, cycle_reset, endCycle_state, Host.Outcome.next.injEq]

theorem installReset_installReset (s : State) : installReset (installReset s) = installReset s := rfl

/-- After `RESET` the phase is Idle, since no entry of VAL is present (10_state R36). -/
theorem phase_installReset (s : State) : phase (installReset s) = .idle := by
  rw [phase_eq_idle_iff, installReset_val, Memory.read_nil]

/-! ## The parameters over a run -/

theorem whileRunning_params {f : State → CycleResult} (hf : ∀ s, (f s).state.params = s.params) (s : State) :
    (whileRunning f s).state.params = s.params := by
  cases hrun : s.run with
  | running => rw [whileRunning_of_running f hrun, hf]
  | halted => rw [whileRunning_of_halted f hrun, endCycle_state]

theorem observeCycle_params (code : Byte) (v : U16) (s : State) :
    (observeCycle code v s).state.params = s.params := by
  obtain ⟨_, _, hemit⟩ | ⟨_, hstore⟩ := observeCycle_cases code v s
  · rw [hemit]
  · rw [hstore]

theorem pipeline_params (raw : Bytes8) (s : State) : (pipeline raw s).state.params = s.params := by
  obtain ⟨f, _, hfield⟩ | ⟨_, herror⟩ := pipeline_cases raw s
  · rw [hfield, observeCycle_params]
  · rw [herror, raiseError_state]

/-- No operation changes a parameter (70_reset_and_hazards R223). -/
theorem cycle_params (i : Instr) (s : State) : (cycle i s).state.params = s.params := by
  cases i with
  | reset => exact installReset_params s
  | cancel => exact whileRunning_params haltBlock_params s
  | unavail => exact whileRunning_params (fun _ => rfl) s
  | report raw => exact whileRunning_params (pipeline_params raw) s
  | nodata => exact whileRunning_params (fun _ => rfl) s
  | obsCo2 v _ _ _ => exact whileRunning_params (observeCycle_params _ v) s
  | obsTemp v _ _ _ => exact whileRunning_params (observeCycle_params _ v) s
  | obsOther code v _ _ _ => exact whileRunning_params (observeCycle_params code v) s
  | badFrame p => exact whileRunning_params (fun _ => rfl) s

/-- Every state has a next state, and it has the same parameters: taking the sample keeps them, and so does the
operation. -/
theorem exists_step_params (s : State) : ∃ t, step s = .next t ∧ t.params = s.params := by
  refine ⟨_, step_eq_cycle s, ?_⟩
  rw [cycle_params, takeInput_state]

theorem run_succ_of_step {s t : State} (h : step s = .next t) (k : Nat) :
    Sys2Proof.core.run (k + 1) s = Sys2Proof.core.run k t := by
  have hstep : Sys2Proof.core.step s = .next t := h
  simp only [Host.Core.run, hstep]

/-- If every state with a property has a next state with it, every run from such a state ends in one. -/
theorem exists_run_of_exists_step (P : State → Prop) (hstep : ∀ s, P s → ∃ t, step s = .next t ∧ P t) (k : Nat)
    {s : State} (hs : P s) : ∃ t, Sys2Proof.core.run k s = .next t ∧ P t := by
  induction k generalizing s with
  | zero => exact ⟨s, rfl, hs⟩
  | succ k ih =>
    obtain ⟨u, hu, hPu⟩ := hstep s hs
    rw [run_succ_of_step hu]
    exact ih hPu

end Machine

/-- Settles O45: having the parameters that the run began with is kept by every step. -/
theorem parametersStayOverEveryRun : Obligations.ParametersStayOverEveryRun := by
  intro k s
  refine Machine.exists_run_of_exists_step (fun t => t.params = s.params) (fun u hu => ?_) k rfl
  obtain ⟨t, hstep, hparams⟩ := Machine.exists_step_params u
  exact ⟨t, hstep, hparams.trans hu⟩

/-- Settles O27: the cycle of `RESET` installs the reset state with no guard, installing it is idempotent, and `rst` is
the first control input that the operation map asks for. -/
theorem resetInstallsTheResetState : Obligations.ResetInstallsTheResetState := by
  refine ⟨fun s => Machine.exec_and_outputOf_of_cycle (Machine.cycle_reset s), fun s t c ht => ?_, fun ctl d => ?_⟩
  · obtain rfl := (Machine.exec_reset_eq_next_iff s t).mp ht
    refine ⟨?_, Machine.phase_installReset s, ?_⟩
    · rw [Machine.installReset_val, Machine.Memory.read_nil]
    · rw [Machine.exec_reset_eq_next_iff, Machine.installReset_installReset]
  · exact decodePort_of_rst (BitVec.getLsbD_append.trans rfl)

end Sys2Proof

/-! The encoder against the decoder of both formats (30_encoding R72, R75, R78, R79, R82). -/

namespace Sys2Proof

/-- The validity test of well-formed terms is the two checks of the FrameDecoder (30_encoding R78). -/
theorem Frame.isValid_iff (p : Bytes8) : Frame.isValid p = true ↔ Machine.passesChecks p := by
  rw [Frame.isValid, Bool.and_eq_true, beq_iff_eq, beq_iff_eq, Machine.passesChecks, Config.terminator]

namespace Machine

/-! ## The value of a frame -/

theorem valueOf_eq_append (vh vl : Byte) : valueOf vh vl = vh ++ vl := by
  apply BitVec.eq_of_toNat_eq
  rw [valueOf_toNat, append_byte_toNat, mul_comm]

theorem frameValue_pack (p : Bytes8) : frameValue (pack p) = valueOf p.b1 p.b2 := by
  rw [frameValue, unpack_pack, valueOf_eq_append]

/-- A value is its high byte followed by its low byte (30_encoding R76). -/
theorem valueOf_extractLsb' (v : U16) : valueOf (v.extractLsb' 8 8) (v.extractLsb' 0 8) = v := by
  have hlt := v.isLt
  apply BitVec.eq_of_toNat_eq
  rw [valueOf_toNat, BitVec.extractLsb'_toNat, BitVec.extractLsb'_toNat, Nat.shiftRight_eq_div_pow]
  omega

theorem extractLsb'_valueOf_high (vh vl : Byte) : (valueOf vh vl).extractLsb' 8 8 = vh := by
  have hh := vh.isLt
  have hl := vl.isLt
  apply BitVec.eq_of_toNat_eq
  rw [BitVec.extractLsb'_toNat, valueOf_toNat, Nat.shiftRight_eq_div_pow]
  omega

theorem extractLsb'_valueOf_low (vh vl : Byte) : (valueOf vh vl).extractLsb' 0 8 = vl := by
  have hl := vl.isLt
  apply BitVec.eq_of_toNat_eq
  rw [BitVec.extractLsb'_toNat, valueOf_toNat, Nat.shiftRight_zero]
  omega

/-- The value of a field is the one number that its two bytes give (41_framedecoder R124). -/
theorem eq_valueOf {v : U16} {vh vl : Byte} (h : v.toNat = 256 * vh.toNat + vl.toNat) : v = valueOf vh vl :=
  BitVec.eq_of_toNat_eq (h.trans (valueOf_toNat vh vl).symm)

/-! ## The frame of a field: `fieldFrame` and `extractField` are inverse to each other on valid frames -/

/-- CHKSUM on bytes: the sum of three bytes wraps as the spec's sum of integers is reduced (30_encoding R77). -/
theorem b3_eq_sum_iff (p : Bytes8) :
    p.b3 = p.b0 + p.b1 + p.b2 ↔ p.b3.toNat = (p.b0.toNat + p.b1.toNat + p.b2.toNat) % 256 := by
  rw [← BitVec.toNat_inj, BitVec.toNat_add, BitVec.toNat_add, Nat.mod_add_mod]

theorem passesChecks_fieldFrame (f : DecodedField) (u5 u6 u7 : Byte) :
    passesChecks (fieldFrame f.code f.value u5 u6 u7) :=
  ⟨rfl, (b3_eq_sum_iff _).mp rfl⟩

theorem extractField_fieldFrame (f : DecodedField) (u5 u6 u7 : Byte) :
    extractField (fieldFrame f.code f.value u5 u6 u7) = f := by
  rw [extractField, fieldFrame, valueOf_extractLsb']

theorem fieldFrame_extractField {p : Bytes8} (h : passesChecks p) :
    fieldFrame (extractField p).code (extractField p).value p.b5 p.b6 p.b7 = p := by
  obtain ⟨hterm, hsum⟩ := h
  have hterm' : Config.terminator = p.b4 := hterm.symm
  rw [← b3_eq_sum_iff] at hsum
  rw [extractField, fieldFrame, extractLsb'_valueOf_high, extractLsb'_valueOf_low, ← hsum, hterm']

/-! ## The `OBS` operation of a field -/

/-- The `OBS` operation of a field: its code chooses the row (30_encoding R78). -/
def opOfField (f : DecodedField) (u5 u6 u7 : Byte) : Instr :=
  if f.code = Config.codeCo2 then .obsCo2 f.value u5 u6 u7
  else if f.code = Config.codeTemp then .obsTemp f.value u5 u6 u7
  else .obsOther f.code f.value u5 u6 u7

theorem opOfField_co2 {f : DecodedField} (h : f.code = Config.codeCo2) (u5 u6 u7 : Byte) :
    opOfField f u5 u6 u7 = .obsCo2 f.value u5 u6 u7 :=
  if_pos h

theorem opOfField_temp {f : DecodedField} (h : f.code = Config.codeTemp) (u5 u6 u7 : Byte) :
    opOfField f u5 u6 u7 = .obsTemp f.value u5 u6 u7 := by
  have hco2 : f.code ≠ Config.codeCo2 := by rw [h]; decide
  rw [opOfField, if_neg hco2, if_pos h]

theorem opOfField_other {f : DecodedField} (hco2 : f.code ≠ Config.codeCo2) (htemp : f.code ≠ Config.codeTemp)
    (u5 u6 u7 : Byte) : opOfField f u5 u6 u7 = .obsOther f.code f.value u5 u6 u7 := by
  rw [opOfField, if_neg hco2, if_neg htemp]

/-- The three rows that a field's operation can be of. -/
theorem opOfField_cases (f : DecodedField) (u5 u6 u7 : Byte) :
    (f.code = Config.codeCo2 ∧ opOfField f u5 u6 u7 = .obsCo2 f.value u5 u6 u7) ∨
    (f.code = Config.codeTemp ∧ opOfField f u5 u6 u7 = .obsTemp f.value u5 u6 u7) ∨
    (f.code ≠ Config.codeCo2 ∧ f.code ≠ Config.codeTemp ∧
      opOfField f u5 u6 u7 = .obsOther f.code f.value u5 u6 u7) := by
  by_cases hco2 : f.code = Config.codeCo2
  · exact .inl ⟨hco2, opOfField_co2 hco2 u5 u6 u7⟩
  · by_cases htemp : f.code = Config.codeTemp
    · exact .inr (.inl ⟨htemp, opOfField_temp htemp u5 u6 u7⟩)
    · exact .inr (.inr ⟨hco2, htemp, opOfField_other hco2 htemp u5 u6 u7⟩)

theorem wellFormed_opOfField (f : DecodedField) (u5 u6 u7 : Byte) : (opOfField f u5 u6 u7).wellFormed = true := by
  obtain ⟨_, hop⟩ | ⟨_, hop⟩ | ⟨hco2, htemp, hop⟩ := opOfField_cases f u5 u6 u7
  · rw [hop]; rfl
  · rw [hop]; rfl
  · rw [hop, Instr.wellFormed, Bool.and_eq_true, bne_iff_ne, bne_iff_ne]
    exact ⟨hco2, htemp⟩

theorem encode_opOfField (f : DecodedField) (u5 u6 u7 : Byte) :
    encode (opOfField f u5 u6 u7) = .frame (pack (fieldFrame f.code f.value u5 u6 u7)) := by
  obtain ⟨hcode, hop⟩ | ⟨hcode, hop⟩ | ⟨_, _, hop⟩ := opOfField_cases f u5 u6 u7
  · rw [hop, encode, hcode]
  · rw [hop, encode, hcode]
  · rw [hop, encode]

/-! ## The frame-level map -/

/-- A frame that passes both checks is the `OBS` operation of its field (30_encoding R78). -/
theorem decodeFrame_pack_of_passesChecks {p : Bytes8} (h : passesChecks p) :
    decodeFrame (pack p) = opOfField (extractField p) p.b5 p.b6 p.b7 := by
  rw [passesChecks_iff, ← Bool.and_eq_true] at h
  rw [decodeFrame_pack, if_pos h, frameValue_pack]
  rfl

theorem decodeFrame_pack_fieldFrame (f : DecodedField) (u5 u6 u7 : Byte) :
    decodeFrame (pack (fieldFrame f.code f.value u5 u6 u7)) = opOfField f u5 u6 u7 := by
  rw [decodeFrame_pack_of_passesChecks (passesChecks_fieldFrame f u5 u6 u7), extractField_fieldFrame]
  rfl

theorem opOfField_ne_badFrame (f : DecodedField) (u5 u6 u7 : Byte) (p : Bytes8) :
    opOfField f u5 u6 u7 ≠ .badFrame p := by
  obtain ⟨_, hop⟩ | ⟨_, hop⟩ | ⟨_, _, hop⟩ := opOfField_cases f u5 u6 u7
  · rw [hop]; exact Instr.noConfusion
  · rw [hop]; exact Instr.noConfusion
  · rw [hop]; exact Instr.noConfusion

/-- BADFRAME takes exactly the frames that fail a check (30_encoding R79). -/
theorem decodeFrame_pack_ne_badFrame_iff (p : Bytes8) : decodeFrame (pack p) ≠ .badFrame p ↔ passesChecks p := by
  constructor
  · intro hne
    by_contra h
    exact hne (decodeFrame_pack_of_not_passesChecks h)
  · intro h
    rw [decodeFrame_pack_of_passesChecks h]
    exact opOfField_ne_badFrame _ _ _ _ p

/-! ## Counting frames -/

/-- What is free in a valid frame: its field and its three unused bytes. -/
abbrev FrameChoice := (Byte × U16) × Byte × Byte × Byte

/-- The valid frame of a choice. -/
def frameOfChoice : FrameChoice → Bytes8
  | ((code, v), u5, u6, u7) => fieldFrame code v u5 u6 u7

theorem decodeFrame_frameOfChoice_ne_badFrame (x : FrameChoice) :
    decodeFrame (pack (frameOfChoice x)) ≠ .badFrame (frameOfChoice x) := by
  obtain ⟨⟨code, v⟩, u5, u6, u7⟩ := x
  exact (decodeFrame_pack_ne_badFrame_iff _).mpr (passesChecks_fieldFrame ⟨code, v⟩ u5 u6 u7)

theorem frameOfChoice_injective : Function.Injective frameOfChoice := by
  rintro ⟨⟨c, v⟩, u5, u6, u7⟩ ⟨⟨c', v'⟩, u5', u6', u7'⟩ h
  have hfield : DecodedField.mk c v = ⟨c', v'⟩ := by
    rw [← extractField_fieldFrame ⟨c, v⟩ u5 u6 u7, ← extractField_fieldFrame ⟨c', v'⟩ u5' u6' u7']
    exact congrArg extractField h
  obtain ⟨rfl, rfl⟩ := DecodedField.mk.inj hfield
  obtain rfl : u5 = u5' := congrArg Oct.b5 h
  obtain rfl : u6 = u6' := congrArg Oct.b6 h
  obtain rfl : u7 = u7' := congrArg Oct.b7 h
  rfl

/-- Each choice gives one valid frame and each valid frame is given by one choice. -/
theorem bijective_frameOfChoice :
    Function.Bijective fun x : FrameChoice =>
      (⟨frameOfChoice x, decodeFrame_frameOfChoice_ne_badFrame x⟩ :
        { p : Bytes8 // decodeFrame (pack p) ≠ .badFrame p }) := by
  refine ⟨fun x y h => frameOfChoice_injective (congrArg Subtype.val h), fun ⟨p, hp⟩ => ?_⟩
  have hvalid := fieldFrame_extractField ((decodeFrame_pack_ne_badFrame_iff p).mp hp)
  exact ⟨(((extractField p).code, (extractField p).value), p.b5, p.b6, p.b7), Subtype.ext hvalid⟩

theorem card_bitVec (n : Nat) : Nat.card (BitVec n) = 2 ^ n :=
  Nat.card_eq_of_equiv_fin BitVec.equivFin.toEquiv

theorem card_frameChoice : Nat.card FrameChoice = 2 ^ 48 := by
  simp only [Nat.card_prod, card_bitVec]
  norm_num

theorem bijective_pack : Function.Bijective pack :=
  Function.bijective_iff_has_inverse.mpr ⟨unpack, unpack_pack, pack_unpack⟩

end Machine

/-- Settles O1: a port-level word by its row of the operation map; a frame-level word is the frame of its field, which
passes both checks, or a frame that fails one. -/
theorem decodeOfEncodeIsTheInstruction : Obligations.DecodeOfEncodeIsTheInstruction := by
  intro i hwf
  cases i with
  | reset => exact decodePort_of_rst rfl
  | cancel => exact decodePort_of_cancel rfl rfl
  | unavail => exact decodePort_of_srcUnavail rfl rfl rfl
  | nodata => exact decodePort_of_idle rfl
  | report raw =>
    rw [encode, decodeWord, decodePort_of_inValid rfl, unpack_pack]
  | obsCo2 v u5 u6 u7 =>
    exact (Machine.decodeFrame_pack_fieldFrame ⟨_, v⟩ u5 u6 u7).trans (Machine.opOfField_co2 rfl _ _ _)
  | obsTemp v u5 u6 u7 =>
    exact (Machine.decodeFrame_pack_fieldFrame ⟨_, v⟩ u5 u6 u7).trans (Machine.opOfField_temp rfl _ _ _)
  | obsOther code v u5 u6 u7 =>
    rw [Instr.wellFormed, Bool.and_eq_true, bne_iff_ne, bne_iff_ne] at hwf
    obtain ⟨hco2, htemp⟩ := hwf
    exact (Machine.decodeFrame_pack_fieldFrame ⟨code, v⟩ u5 u6 u7).trans (Machine.opOfField_other hco2 htemp _ _ _)
  | badFrame p =>
    have hinvalid : ¬ Machine.passesChecks p := by
      rw [← Frame.isValid_iff, Bool.not_eq_true, ← Bool.not_eq_true']
      exact hwf
    exact Machine.decodeFrame_pack_of_not_passesChecks hinvalid

/-- Settles O2: a valid frame is the frame of its own field, and BADFRAME keeps the whole frame. -/
theorem everyFrameIsTheEncodingOfItsOperation : Obligations.EveryFrameIsTheEncodingOfItsOperation := by
  intro w
  obtain ⟨p, rfl⟩ := Machine.bijective_pack.surjective w
  by_cases h : Machine.passesChecks p
  · rw [Machine.decodeFrame_pack_of_passesChecks h, Machine.encode_opOfField, Machine.fieldFrame_extractField h]
    exact ⟨rfl, Machine.wellFormed_opOfField _ _ _ _⟩
  · rw [Machine.decodeFrame_pack_of_not_passesChecks h]
    refine ⟨rfl, ?_⟩
    rw [Instr.wellFormed, Bool.not_eq_true', ← Bool.not_eq_true, Frame.isValid_iff]
    exact h

/-- Settles O5: the operation of a valid frame is that of its field, whose code chooses the row. -/
theorem frameFieldsSelectTheOperation : Obligations.FrameFieldsSelectTheOperation := by
  intro p
  have hvalue := Machine.valueOf_toNat p.b1 p.b2
  refine ⟨fun h hco2 => ⟨_, hvalue, ?_⟩, fun h htemp => ⟨_, hvalue, ?_⟩, fun h hco2 htemp => ⟨_, hvalue, ?_⟩,
    Machine.decodeFrame_pack_of_not_passesChecks⟩
  · exact (Machine.decodeFrame_pack_of_passesChecks h).trans (Machine.opOfField_co2 hco2 _ _ _)
  · exact (Machine.decodeFrame_pack_of_passesChecks h).trans (Machine.opOfField_temp htemp _ _ _)
  · exact (Machine.decodeFrame_pack_of_passesChecks h).trans (Machine.opOfField_other hco2 htemp _ _ _)

/-- Settles O7: a valid frame is a free choice of code, value and three unused bytes. -/
theorem exactlyTwoToThe48FramesAreValid : Obligations.ExactlyTwoToThe48FramesAreValid := by
  constructor
  · rw [← Nat.card_eq_of_bijective _ Machine.bijective_frameOfChoice, Machine.card_frameChoice]
  · rw [Nat.card_eq_of_bijective _ Machine.bijective_pack, Machine.card_bitVec]

/-- Settles O4: `in_data` is unpacked byte 0 first, and the row of `REPORT` alone asks for it. -/
theorem inDataIsReadByReportAlone : Obligations.InDataIsReadByReportAlone := by
  refine ⟨unpack_get_toNat, fun d => decodePort_of_inValid rfl, fun ctl d d' hctl => ?_⟩
  rw [decodePort_eq, decodePort_eq, if_neg hctl, if_neg hctl]

/-- Settles O8: nine closed words, evaluated. -/
theorem writtenWordsDecode : Obligations.WrittenWordsDecode := by
  unfold Obligations.WrittenWordsDecode
  decide

end Sys2Proof

/-! The Transform as a whole: its inverse, ROTMIX as a rotation, and the reach of a raw byte (40_transform R107, R108,
R111). -/

namespace Sys2Proof

namespace Machine

/-! ## Each stage is undone by a stage of INVERSE -/

theorem modAdd_modSub (m ns : Bytes8) : modAdd (modSub m ns) ns = m :=
  Oct.eq_of_get_eq fun i => by rw [modAdd_get, modSub_get, BitVec.sub_add_cancel]

theorem modSub_modAdd (p ns : Bytes8) : modSub (modAdd p ns) ns = p :=
  Oct.eq_of_get_eq fun i => by rw [modSub_get, modAdd_get, BitVec.add_sub_cancel]

theorem xorKey_xorKey (key u : Bytes8) : xorKey key (xorKey key u) = u :=
  Oct.eq_of_get_eq fun i => by rw [xorKey_get, xorKey_get, BitVec.xor_assoc, BitVec.xor_self, BitVec.xor_zero]

theorem gather_unshuffle (sh : Shuffle) (raw : Bytes8) : gather sh (unshuffle sh raw) = raw :=
  Oct.eq_of_get_eq fun i => by rw [gather_get, unshuffle_get]

theorem unshuffle_gather (sh : Shuffle) (u : Bytes8) : unshuffle sh (gather sh u) = u :=
  (eq_unshuffle fun i => (gather_get sh u i).symm).symm

theorem unmix_get_toNat (m : Bytes8) (i : Pos) :
    ((unmix m).get i).toNat = (m.get (i + 1)).toNat / 32 + ((m.get i).toNat % 32) * 8 := by
  rw [unmix_get, BitVec.or_comm]
  exact toNat_shiftRight_or_shiftLeft_eq_add _ _ rfl

/-- A byte comes back from its upper five bits in its own place and its lower three in the next (40_transform R108). -/
theorem unmix_rotMix (x : Bytes8) : unmix (rotMix x) = x := by
  refine Oct.eq_of_get_eq fun i => BitVec.eq_of_toNat_eq ?_
  have hlt := (x.get i).isLt
  have hnext := (x.get (i + 1)).isLt
  rw [unmix_get_toNat, rotMix_get_toNat, rotMix_get_toNat, add_sub_cancel_right]
  omega

theorem rotMix_unmix (m : Bytes8) : rotMix (unmix m) = m := by
  refine Oct.eq_of_get_eq fun i => BitVec.eq_of_toNat_eq ?_
  have hlt := (m.get i).isLt
  have hnext := (m.get (i + 1)).isLt
  rw [rotMix_get_toNat, unmix_get_toNat, unmix_get_toNat, sub_add_cancel]
  omega

/-- INVERSE undoes TRANSFORM, stage by stage from the last (40_transform R108). -/
theorem inverse_transform (c : Params) (raw : Bytes8) : inverse c (transform c raw) = raw := by
  rw [inverse, transform, modAdd_modSub, unmix_rotMix, xorKey_xorKey, gather_unshuffle]

theorem transform_inverse (c : Params) (p : Bytes8) : transform c (inverse c p) = p := by
  rw [inverse, transform, unshuffle_gather, xorKey_xorKey, rotMix_unmix, modSub_modAdd]

/-! ## ROTMIX as a rotation of the packed word -/

/-- A rotation as a number: the bits shifted out at the bottom stand above the others. -/
theorem toNat_shiftRight_or_shiftLeft_self {w : Nat} (x : BitVec w) {r l : Nat} (h : l + r = w) :
    ((x >>> r) ||| (x <<< l)).toNat = x.toNat / 2 ^ r + (x.toNat % 2 ^ r) * 2 ^ l := by
  have hlow : x.toNat / 2 ^ r < 2 ^ l := by
    rw [Nat.div_lt_iff_lt_mul (Nat.two_pow_pos r), ← pow_add, h]
    exact x.isLt
  have hhigh : x.toNat * 2 ^ l % 2 ^ w = 2 ^ l * (x.toNat % 2 ^ r) := by
    rw [show 2 ^ w = 2 ^ l * 2 ^ r by rw [← pow_add, h], mul_comm, Nat.mul_mod_mul_left]
  rw [BitVec.toNat_or, BitVec.toNat_ushiftRight, BitVec.toNat_shiftLeft, Nat.shiftRight_eq_div_pow,
    Nat.shiftLeft_eq, hhigh, Nat.or_comm, ← Nat.two_pow_add_eq_or_of_lt hlow]
  ring

/-- The lower three bits of byte 7, the last of the word, come round to the top of byte 0 (40_transform R107). -/
theorem pack_rotMix (x : Bytes8) : pack (rotMix x) = (pack x >>> 3) ||| (pack x <<< 61) := by
  apply BitVec.eq_of_toNat_eq
  have hbyte := rotMix_get_toNat x
  have h0 : (rotMix x).b0.toNat = x.b0.toNat / 8 + (x.b7.toNat % 8) * 32 := hbyte 0
  have h1 : (rotMix x).b1.toNat = x.b1.toNat / 8 + (x.b0.toNat % 8) * 32 := hbyte 1
  have h2 : (rotMix x).b2.toNat = x.b2.toNat / 8 + (x.b1.toNat % 8) * 32 := hbyte 2
  have h3 : (rotMix x).b3.toNat = x.b3.toNat / 8 + (x.b2.toNat % 8) * 32 := hbyte 3
  have h4 : (rotMix x).b4.toNat = x.b4.toNat / 8 + (x.b3.toNat % 8) * 32 := hbyte 4
  have h5 : (rotMix x).b5.toNat = x.b5.toNat / 8 + (x.b4.toNat % 8) * 32 := hbyte 5
  have h6 : (rotMix x).b6.toNat = x.b6.toNat / 8 + (x.b5.toNat % 8) * 32 := hbyte 6
  have h7 : (rotMix x).b7.toNat = x.b7.toNat / 8 + (x.b6.toNat % 8) * 32 := hbyte 7
  rw [toNat_shiftRight_or_shiftLeft_self (pack x) (show 61 + 3 = 64 from rfl), pack_toNat, pack_toNat]
  omega

/-! ## The reach of a raw byte -/

theorem unshuffle_get_of_eq {sh : Shuffle} {a i : Pos} (h : sh.pos.get a = i) (raw : Bytes8) :
    (unshuffle sh raw).get i = raw.get a := by
  rw [← h, unshuffle_get]

/-- The closed form of a plaintext byte (40_transform R111). -/
theorem transform_get {c : Params} {i a b : Pos} (ha : c.shuffle.pos.get a = i) (hb : c.shuffle.pos.get b = i - 1)
    (raw : Bytes8) :
    (transform c raw).get i =
      (((raw.get a ^^^ c.key.get i) >>> 3) ||| ((raw.get b ^^^ c.key.get (i - 1)) <<< 5)) -
        (nibSwap c.cstate).get i := by
  rw [transform, modSub_get, rotMix_get, xorKey_get, xorKey_get, unshuffle_get_of_eq ha, unshuffle_get_of_eq hb]

theorem ushiftRight_three_eq_of_upper {x y : Byte} (h : x.extractLsb' 3 5 = y.extractLsb' 3 5) : x >>> 3 = y >>> 3 := by
  have hx := x.isLt
  have hy := y.isLt
  rw [← BitVec.toNat_inj, BitVec.extractLsb'_toNat, BitVec.extractLsb'_toNat, Nat.shiftRight_eq_div_pow,
    Nat.shiftRight_eq_div_pow] at h
  rw [← BitVec.toNat_inj, BitVec.toNat_ushiftRight, BitVec.toNat_ushiftRight, Nat.shiftRight_eq_div_pow,
    Nat.shiftRight_eq_div_pow]
  omega

theorem shiftLeft_five_eq_of_lower {x y : Byte} (h : x.extractLsb' 0 3 = y.extractLsb' 0 3) : x <<< 5 = y <<< 5 := by
  rw [← BitVec.toNat_inj, BitVec.extractLsb'_toNat, BitVec.extractLsb'_toNat, Nat.shiftRight_zero,
    Nat.shiftRight_zero] at h
  rw [← BitVec.toNat_inj, BitVec.toNat_shiftLeft, BitVec.toNat_shiftLeft, Nat.shiftLeft_eq, Nat.shiftLeft_eq]
  omega

/-- A plaintext byte is determined by the upper five bits of one raw byte and the lower three of another. -/
theorem transform_get_congr {c : Params} {raw raw' : Bytes8} {i a b : Pos} (ha : c.shuffle.pos.get a = i)
    (hb : c.shuffle.pos.get b = i - 1) (hupper : (raw.get a).extractLsb' 3 5 = (raw'.get a).extractLsb' 3 5)
    (hlower : (raw.get b).extractLsb' 0 3 = (raw'.get b).extractLsb' 0 3) :
    (transform c raw).get i = (transform c raw').get i := by
  rw [transform_get ha hb, transform_get ha hb, BitVec.ushiftRight_xor_distrib, BitVec.ushiftRight_xor_distrib,
    BitVec.shiftLeft_xor_distrib, BitVec.shiftLeft_xor_distrib, ushiftRight_three_eq_of_upper hupper,
    shiftLeft_five_eq_of_lower hlower]

section
variable {c : Params} {raw raw' : Bytes8} {k : Pos} (hothers : ∀ i : Pos, i ≠ k → raw.get i = raw'.get i)
include hothers

theorem transform_get_eq_of_unreached {i : Pos} (hown : i ≠ c.shuffle.pos.get k)
    (hnext : i ≠ c.shuffle.pos.get k + 1) : (transform c raw).get i = (transform c raw').get i := by
  obtain ⟨a, ha⟩ := c.shuffle.bijective_get.surjective i
  obtain ⟨b, hb⟩ := c.shuffle.bijective_get.surjective (i - 1)
  have hak : a ≠ k := by
    rintro rfl
    exact hown ha.symm
  have hbk : b ≠ k := by
    rintro rfl
    exact hnext (by rw [hb, sub_add_cancel])
  exact transform_get_congr ha hb (by rw [hothers a hak]) (by rw [hothers b hbk])

theorem transform_get_own_eq (hupper : (raw.get k).extractLsb' 3 5 = (raw'.get k).extractLsb' 3 5) :
    (transform c raw).get (c.shuffle.pos.get k) = (transform c raw').get (c.shuffle.pos.get k) := by
  obtain ⟨b, hb⟩ := c.shuffle.bijective_get.surjective (c.shuffle.pos.get k - 1)
  have hbk : b ≠ k := by
    rintro rfl
    exact absurd (sub_eq_self.mp hb.symm) (by decide)
  exact transform_get_congr rfl hb hupper (by rw [hothers b hbk])

theorem transform_get_next_eq (hlower : (raw.get k).extractLsb' 0 3 = (raw'.get k).extractLsb' 0 3) :
    (transform c raw).get (c.shuffle.pos.get k + 1) = (transform c raw').get (c.shuffle.pos.get k + 1) := by
  obtain ⟨a, ha⟩ := c.shuffle.bijective_get.surjective (c.shuffle.pos.get k + 1)
  have hak : a ≠ k := by
    rintro rfl
    exact absurd (left_eq_add.mp ha) (by decide)
  exact transform_get_congr ha (add_sub_cancel_right _ _).symm (by rw [hothers a hak]) hlower

end

end Machine

/-- Settles O15: each stage of INVERSE undoes one stage of TRANSFORM on both sides. -/
theorem transformIsABijection : Obligations.TransformIsABijection := by
  intro c
  have hleft := Machine.inverse_transform c
  have hright := Machine.transform_inverse c
  exact ⟨hright, hleft, Function.bijective_iff_has_inverse.mpr ⟨Machine.inverse c, hleft, hright⟩⟩

/-- Settles O14: the lower three bits of each byte are the upper three of the next one, round the word. -/
theorem rotMixIsRotateRightByThree : Obligations.RotMixIsRotateRightByThree := by
  intro x
  exact ⟨Machine.pack_rotMix x, Machine.pack_rotMix x⟩

/-- Settles O16: the byte at `i` reads the raw bytes that SHUFFLE sends to `i` and to `i - 1`, and XOR with the key
commutes with the shifts. -/
theorem plaintextByteDependsOnTwoRawBytes : Obligations.PlaintextByteDependsOnTwoRawBytes := by
  refine ⟨fun c raw i a b ha hb => Machine.transform_get ha hb raw, fun c raw raw' k hothers => ?_⟩
  exact ⟨fun i => Machine.transform_get_eq_of_unreached hothers, Machine.transform_get_own_eq hothers,
    Machine.transform_get_next_eq hothers⟩

end Sys2Proof

/-! What one operation can do: the field it delivers, its cycle in every case, and the frame-level operation that a
`REPORT` performs (30_encoding R78, 43_pipeline R172, R179). -/

namespace Sys2Proof

namespace Machine

/-! ## The field that an operation delivers -/

/-- The field that an operation delivers to the aggregator of a running block, if any (43_pipeline R172). -/
def fieldOfInstr (c : Params) : Instr → Option DecodedField
  | .report raw => (decodeReport (transform c raw)).toOption
  | .obsCo2 v _ _ _ => some ⟨Config.codeCo2, v⟩
  | .obsTemp v _ _ _ => some ⟨Config.codeTemp, v⟩
  | .obsOther code v _ _ _ => some ⟨code, v⟩
  | _ => none

/-- The status that a poll operation answers in a running block when it delivers no field; `RESET` and `CANCEL` are no
poll operations (43_pipeline R174). -/
def pollStatus : Instr → Option Status
  | .reset => none
  | .cancel => none
  | .nodata => some .noData
  | .unavail => some .unavail
  | _ => some .chkFail

theorem decodeReport_toOption_of_passesChecks {p : Bytes8} (h : passesChecks p) :
    (decodeReport p).toOption = some (extractField p) := by
  rw [decodeReport_of_passesChecks h]; rfl

theorem decodeReport_toOption_of_not_passesChecks {p : Bytes8} (h : ¬ passesChecks p) :
    (decodeReport p).toOption = none := by
  rw [decodeReport_of_not_passesChecks h]; rfl

theorem decodeReport_toOption_eq_some_iff (p : Bytes8) (f : DecodedField) :
    (decodeReport p).toOption = some f ↔ passesChecks p ∧ extractField p = f := by
  by_cases h : passesChecks p
  · simp [decodeReport_toOption_of_passesChecks h, h]
  · simp [decodeReport_toOption_of_not_passesChecks h, h]

theorem fieldOfInstr_opOfField (c : Params) (f : DecodedField) (u5 u6 u7 : Byte) :
    fieldOfInstr c (opOfField f u5 u6 u7) = some f := by
  obtain ⟨hcode, hop⟩ | ⟨hcode, hop⟩ | ⟨_, _, hop⟩ := opOfField_cases f u5 u6 u7
  · rw [hop, fieldOfInstr, ← hcode]
  · rw [hop, fieldOfInstr, ← hcode]
  · rw [hop, fieldOfInstr]

/-- The operation of a frame delivers what the FrameDecoder makes of the frame (30_encoding R78, 41_framedecoder
R120). -/
theorem fieldOfInstr_decodeFrame_pack (c : Params) (p : Bytes8) :
    fieldOfInstr c (decodeFrame (pack p)) = (decodeReport p).toOption := by
  by_cases h : passesChecks p
  · rw [decodeFrame_pack_of_passesChecks h, fieldOfInstr_opOfField, decodeReport_toOption_of_passesChecks h]
  · rw [decodeFrame_pack_of_not_passesChecks h, decodeReport_toOption_of_not_passesChecks h]
    rfl

theorem pollStatus_of_field {c : Params} {i : Instr} {f : DecodedField} (h : fieldOfInstr c i = some f) :
    pollStatus i = some .chkFail := by
  cases i with
  | reset | cancel | unavail | nodata | badFrame _ => cases h
  | report _ | obsCo2 _ _ _ _ | obsTemp _ _ _ _ | obsOther _ _ _ _ _ => rfl

theorem pollStatus_opOfField (f : DecodedField) (u5 u6 u7 : Byte) :
    pollStatus (opOfField f u5 u6 u7) = some .chkFail := by
  obtain ⟨_, hop⟩ | ⟨_, hop⟩ | ⟨_, _, hop⟩ := opOfField_cases f u5 u6 u7
  · rw [hop]; rfl
  · rw [hop]; rfl
  · rw [hop]; rfl

theorem pollStatus_decodeFrame_pack (p : Bytes8) : pollStatus (decodeFrame (pack p)) = some .chkFail := by
  by_cases h : passesChecks p
  · rw [decodeFrame_pack_of_passesChecks h, pollStatus_opOfField]
  · rw [decodeFrame_pack_of_not_passesChecks h]; rfl

theorem pollStatus_eq_noData_iff (i : Instr) : pollStatus i = some .noData ↔ i = .nodata := by
  cases i <;> simp [pollStatus]

theorem pollStatus_eq_unavail_iff (i : Instr) : pollStatus i = some .unavail ↔ i = .unavail := by
  cases i <;> simp [pollStatus]

theorem pollStatus_eq_none_iff (i : Instr) : pollStatus i = none ↔ i = .reset ∨ i = .cancel := by
  cases i <;> simp [pollStatus]

theorem pollStatus_range {i : Instr} {st : Status} (h : pollStatus i = some st) :
    st = .noData ∨ st = .unavail ∨ st = .chkFail := by
  cases i with
  | reset | cancel => cases h
  | nodata => exact .inl (Option.some.inj h).symm
  | unavail => exact .inr (.inl (Option.some.inj h).symm)
  | report _ | obsCo2 _ _ _ _ | obsTemp _ _ _ _ | obsOther _ _ _ _ _ | badFrame _ =>
    exact .inr (.inr (Option.some.inj h).symm)

theorem ne_reset_of_pollStatus {i : Instr} {st : Status} (h : pollStatus i = some st) : i ≠ .reset := by
  rintro rfl
  cases h

theorem ne_cancel_of_pollStatus {i : Instr} {st : Status} (h : pollStatus i = some st) : i ≠ .cancel := by
  rintro rfl
  cases h

/-! ## The cycle of an operation, in every case -/

theorem cycle_cancel_of_running {s : State} (hrun : s.run = .running) :
    cycle .cancel s = endCycle .halted none (haltBlock s) :=
  whileRunning_of_running (fun s => endCycle .halted none (haltBlock s)) hrun

/-- An operation with a field is an OBSERVE of that field, at either level. -/
theorem cycle_of_fieldOfInstr {s : State} (hrun : s.run = .running) {i : Instr} {f : DecodedField}
    (h : fieldOfInstr s.params i = some f) : cycle i s = observeCycle f.code f.value s := by
  cases i with
  | reset | cancel | unavail | nodata | badFrame _ => cases h
  | report raw =>
    obtain ⟨hvalid, rfl⟩ := (decodeReport_toOption_eq_some_iff _ _).mp h
    rw [cycle, reportCycle, whileRunning_of_running _ hrun, pipeline, decodeReport_of_passesChecks hvalid]
  | obsCo2 v u5 u6 u7 => cases h; exact cycle_obsCo2_of_running hrun v u5 u6 u7
  | obsTemp v u5 u6 u7 => cases h; exact cycle_obsTemp_of_running hrun v u5 u6 u7
  | obsOther code v u5 u6 u7 => cases h; exact cycle_obsOther_of_running hrun code v u5 u6 u7

/-- A poll operation without a field keeps the state and answers its status. -/
theorem cycle_of_no_fieldOfInstr {s : State} (hrun : s.run = .running) {i : Instr} {st : Status}
    (hst : pollStatus i = some st) (h : fieldOfInstr s.params i = none) : cycle i s = endCycle st none s := by
  cases i with
  | reset | cancel => cases hst
  | nodata => cases hst; exact cycle_nodata_of_running hrun
  | unavail => cases hst; exact cycle_unavail_of_running hrun
  | badFrame p => cases hst; exact cycle_badFrame_of_running hrun p
  | obsCo2 _ _ _ _ | obsTemp _ _ _ _ | obsOther _ _ _ _ _ => cases h
  | report raw =>
    cases hst
    refine cycle_report_of_not_passesChecks hrun fun hvalid => ?_
    rw [fieldOfInstr, decodeReport_toOption_of_passesChecks hvalid] at h
    cases h

/-- Two poll operations that deliver the same field, or none with the same status, have the same cycle. -/
theorem cycle_congr {i j : Instr} {s : State} {st : Status} (hi : pollStatus i = some st) (hj : pollStatus j = some st)
    (hfield : fieldOfInstr s.params i = fieldOfInstr s.params j) : cycle i s = cycle j s := by
  cases hrun : s.run with
  | halted =>
    rw [cycle_of_halted hrun (ne_reset_of_pollStatus hi), cycle_of_halted hrun (ne_reset_of_pollStatus hj)]
  | running =>
    cases hf : fieldOfInstr s.params j with
    | none => rw [cycle_of_no_fieldOfInstr hrun hi (hfield.trans hf), cycle_of_no_fieldOfInstr hrun hj hf]
    | some f => rw [cycle_of_fieldOfInstr hrun (hfield.trans hf), cycle_of_fieldOfInstr hrun hf]

/-- Everything that one operation can do (43_pipeline R179). -/
inductive CycleCase (i : Instr) (s : State) : Prop where
  /-- `RESET`, in either run state. -/
  | reset (hi : i = .reset) (h : cycle i s = endCycle .reset none (installReset s))
  /-- A halted block ignores every other operation. -/
  | ignored (hi : i ≠ .reset) (hrun : s.run = .halted) (h : cycle i s = endCycle .halted none s)
  /-- `CANCEL` of a running block. -/
  | halts (hi : i = .cancel) (hrun : s.run = .running) (h : cycle i s = endCycle .halted none (haltBlock s))
  /-- A poll without a field. -/
  | quiet (st : Status) (hst : pollStatus i = some st) (hrun : s.run = .running)
      (hf : fieldOfInstr s.params i = none) (h : cycle i s = endCycle st none s)
  /-- A field that is stored and no more. -/
  | stores (f : DecodedField) (hf : fieldOfInstr s.params i = some f) (hrun : s.run = .running)
      (hold : f.code = Config.codeCo2 → s.leCo2 = some f.value)
      (h : cycle i s = endCycle .stored none (store f.code f.value s))
  /-- A CO2 field with a new value. -/
  | emits (v : U16) (hf : fieldOfInstr s.params i = some ⟨Config.codeCo2, v⟩) (hrun : s.run = .running)
      (hnew : s.leCo2 ≠ some v)
      (h : cycle i s = endCycle .emit (some (buildReading v (s.val.read Config.codeTemp)))
        { s with val := s.val.write Config.codeCo2 v, leCo2 := some v, leTemp := s.val.read Config.codeTemp })

theorem cycleCase_of_field {i : Instr} {s : State} {f : DecodedField} (hrun : s.run = .running)
    (hf : fieldOfInstr s.params i = some f) : CycleCase i s := by
  by_cases hnew : f.code = Config.codeCo2 ∧ s.leCo2 ≠ some f.value
  · obtain ⟨code, v⟩ := f
    obtain ⟨rfl, hnew⟩ := hnew
    exact .emits v hf hrun hnew ((cycle_of_fieldOfInstr hrun hf).trans (observeCycle_of_new hnew))
  · have hold : f.code = Config.codeCo2 → s.leCo2 = some f.value :=
      fun hcode => Classical.not_not.mp fun hne => hnew ⟨hcode, hne⟩
    exact .stores f hf hrun hold ((cycle_of_fieldOfInstr hrun hf).trans (observeCycle_of_not_new hold))

theorem cycleCase (i : Instr) (s : State) : CycleCase i s := by
  cases hrun : s.run with
  | halted =>
    by_cases hi : i = .reset
    · exact .reset hi (hi ▸ cycle_reset s)
    · exact .ignored hi hrun (cycle_of_halted hrun hi)
  | running =>
    cases hf : fieldOfInstr s.params i with
    | some f => exact cycleCase_of_field hrun hf
    | none =>
      cases hst : pollStatus i with
      | some st => exact .quiet st hst hrun hf (cycle_of_no_fieldOfInstr hrun hst hf)
      | none =>
        obtain rfl | rfl := (pollStatus_eq_none_iff i).mp hst
        · exact .reset rfl (cycle_reset s)
        · exact .halts rfl hrun (cycle_cancel_of_running hrun)

/-! ## Operations neither read nor write the samples that lie ahead -/

@[simp] theorem presented_val (s : State) (ins : List PortInput) : (s.presented ins).val = s.val := rfl
@[simp] theorem presented_leCo2 (s : State) (ins : List PortInput) : (s.presented ins).leCo2 = s.leCo2 := rfl
@[simp] theorem presented_inputs (s : State) (ins : List PortInput) : (s.presented ins).inputs = ins := rfl

theorem cycle_presented (i : Instr) (s : State) (ins : List PortInput) :
    cycle i (s.presented ins) = ⟨(cycle i s).state.presented ins, (cycle i s).out⟩ := by
  cases cycleCase i s with
  | reset hi h => rw [h, hi]; rfl
  | ignored hi hrun h => rw [h, cycle_of_halted (s := s.presented ins) hrun hi]; rfl
  | halts hi hrun h => rw [h, hi, cycle_cancel_of_running (s := s.presented ins) hrun]; rfl
  | quiet st hst hrun hf h => rw [h, cycle_of_no_fieldOfInstr (s := s.presented ins) hrun hst hf]; rfl
  | stores f hf hrun hold h =>
    rw [h, cycle_of_fieldOfInstr (s := s.presented ins) hrun hf, observeCycle_of_not_new (s := s.presented ins) hold]
    rfl
  | emits v hf hrun hnew h =>
    rw [h, cycle_of_fieldOfInstr (s := s.presented ins) hrun hf, observeCycle_of_new (s := s.presented ins) hnew]
    rfl

theorem takeInput_snd (s : State) : (takeInput s).2 = s.presented s.inputs.tail :=
  takeInput_state s

/-- A step is the cycle of the next operation, with the first sample gone. -/
theorem step_eq (s : State) : step s = .next ((cycle (nextOp s) s).state.presented s.inputs.tail) := by
  rw [step_eq_cycle, takeInput_snd, cycle_presented, nextOp]

theorem eq_of_step {s t : State} (h : step s = .next t) : t = (cycle (nextOp s) s).state.presented s.inputs.tail := by
  rw [step_eq] at h
  exact (Host.Outcome.next.inj h).symm

theorem output_eq (s : State) : output s = (cycle (nextOp s) s).out := by
  rw [output, outputOf, takeInput_snd, cycle_presented, nextOp]

/-! ## Words and frames as operations of a cycle -/

/-- What `exec` and the ports show is the cycle's. -/
theorem exec_and_outputOf_congr {i j : Instr} {s : State} (h : cycle i s = cycle j s) :
    exec i s = exec j s ∧ outputOf i s = outputOf j s := by
  rw [exec_eq_cycle, exec_eq_cycle, outputOf, outputOf, h]
  exact ⟨rfl, rfl⟩

theorem cycle_report_eq_cycle_decodeFrame (raw : Bytes8) (s : State) :
    cycle (.report raw) s = cycle (decodeFrame (pack (transform s.params raw))) s :=
  cycle_congr rfl (pollStatus_decodeFrame_pack _) (fieldOfInstr_decodeFrame_pack _ _).symm

/-- The sample that a word is presented as runs as the word's operation: a frame goes out through INVERSE and comes back
through TRANSFORM (30_encoding R82). -/
theorem cycle_decodePort_inputOfWord (iw : InstrWord) (s : State) :
    cycle (decodePort (inputOfWord s.params iw)) s = cycle (decodeWord iw) s := by
  cases iw with
  | port i => rfl
  | frame w =>
    rw [inputOfWord, decodePort_of_inValid rfl, unpack_pack, cycle_report_eq_cycle_decodeFrame, transform_inverse,
      pack_unpack, decodeWord]

/-- A step with a sample presented takes that sample and leaves the samples behind it. -/
theorem step_presentFirst (i : PortInput) (s : State) :
    step (presentFirst i s) = exec (decodePort i) s ∧ output (presentFirst i s) = outputOf (decodePort i) s := by
  rw [step, output, takeInput_cons (presentFirst_inputs i s)]
  exact ⟨rfl, rfl⟩

theorem withFetchWord_of_tableWord {nbits w : Nat} {iw : InstrWord} (h : tableWord nbits w = some iw) (s : State) :
    s.withFetchWord nbits w = presentFirst (inputOfWord s.params iw) s := by
  rw [State.withFetchWord, presentTableWord, inputOfTableWord, h]
  rfl

end Machine

/-- Settles O21: the REPORT and the operation of its plaintext frame deliver the same field, or fail the same checks. -/
theorem reportRunsItsFrameOperation : Obligations.ReportRunsItsFrameOperation := by
  intro raw s
  exact Machine.exec_and_outputOf_congr (Machine.cycle_report_eq_cycle_decodeFrame raw s)

/-- Settles O18: neither check and no part of the field reads the last three bytes. -/
theorem unusedFrameBytesAreIgnored : Obligations.UnusedFrameBytesAreIgnored := by
  intro p u5 u6 u7
  have hdecode : Machine.decodeReport { p with b5 := u5, b6 := u6, b7 := u7 } = Machine.decodeReport p := rfl
  refine ⟨hdecode, fun s => Machine.exec_and_outputOf_congr ?_⟩
  refine Machine.cycle_congr (Machine.pollStatus_decodeFrame_pack _) (Machine.pollStatus_decodeFrame_pack _) ?_
  rw [Machine.fieldOfInstr_decodeFrame_pack, Machine.fieldOfInstr_decodeFrame_pack, hdecode]

/-- Settles O22: the step takes the presented sample, whose operation has the cycle of the word's. -/
theorem presentedTableWordRunsAsItsInstruction : Obligations.PresentedTableWordRunsAsItsInstruction := by
  intro s nbits w i h
  obtain ⟨iw, hiw, rfl⟩ := Option.map_eq_some_iff.mp h
  obtain ⟨hstep, hout⟩ := Machine.step_presentFirst (Machine.inputOfWord s.params iw) s
  obtain ⟨hexec, hshown⟩ := Machine.exec_and_outputOf_congr (Machine.cycle_decodePort_inputOfWord iw s)
  rw [Machine.withFetchWord_of_tableWord hiw]
  exact ⟨hstep.trans hexec, hout.trans hshown⟩

/-- Settles O20: a step is the cycle of the next operation, and no operation touches the samples that lie ahead. -/
theorem stepRunsTheDecodedOperation : Obligations.StepRunsTheDecodedOperation := by
  intro s
  refine ⟨fun i rest hins => ?_, fun hins => ?_, fun t ht => ?_⟩
  · rw [Machine.step, Machine.output, Machine.takeInput_cons hins]
    exact ⟨rfl, rfl⟩
  · rw [Machine.step, Machine.output, Machine.takeInput_nil hins, decodePort_of_idle rfl]
    exact ⟨rfl, rfl⟩
  · rw [Machine.eq_of_step ht, Machine.presented_inputs]

/-- Settles O23: `exec` and `step` answer the state of a cycle. -/
theorem everyOperationCompletes : Obligations.EveryOperationCompletes :=
  ⟨fun i s => ⟨_, Machine.exec_eq_cycle i s⟩, fun s => ⟨_, Machine.step_eq s⟩⟩

end Sys2Proof

/-! The temperature conversions (42_aggregator R143, R144) and the output record of a cycle (43_pipeline R174). -/

namespace Sys2Proof

namespace Machine

/-! ## TCONV and ROUND1 -/

theorem tconv_bounds (v : U16) : -21852 ≤ tconv v ∧ tconv v ≤ 305823 := by
  have hlt := v.isLt
  rw [tconv]
  omega

/-- An integer in the range of 20 bits is read back from its two's complement. -/
theorem toInt_ofInt_twenty {x : Int} (hlo : -2 ^ 19 ≤ x) (hhi : x < 2 ^ 19) : (BitVec.ofInt 20 x).toInt = x := by
  rw [BitVec.toInt_ofInt]
  exact Int.bmod_eq_of_le (by omega) (by omega)

theorem toInt_ofInt_tconv (v : U16) : (BitVec.ofInt 20 (tconv v)).toInt = tconv v := by
  obtain ⟨hlo, hhi⟩ := tconv_bounds v
  exact toInt_ofInt_twenty (by omega) (by omega)

theorem tconv_ne_zero (v : U16) : tconv v ≠ 0 := by
  rw [tconv]
  omega

theorem tconv_div_eighty (v : U16) : (tconv v : ℚ) / 80 = (v.toNat : ℚ) / 16 - 27315 / 100 := by
  rw [tconv]
  push_cast
  ring

/-- 5 is invertible modulo 8, so that the remainder of T80 is a half exactly for the multiples of 8. -/
theorem tconv_emod_eight (v : U16) : tconv v % 8 = 4 ↔ v.toNat % 8 = 0 := by
  rw [tconv]
  omega

theorem round1_of_lt {t : Int} (h : t % 8 < 4) (tie : Int → Bool) : round1 tie t = t / 8 := by
  simp only [round1, if_pos h]

theorem round1_of_gt {t : Int} (h : 4 < t % 8) (tie : Int → Bool) : round1 tie t = t / 8 + 1 := by
  have hlt : ¬ t % 8 < 4 := by omega
  simp only [round1, if_neg hlt, gt_iff_lt, if_pos h]

theorem round1_of_half {t : Int} (h : t % 8 = 4) (tie : Int → Bool) :
    round1 tie t = if tie (t / 8) then t / 8 + 1 else t / 8 := by
  simp [round1, h]

/-- Away from an exact half ROUND1 is the nearest tenth, and no TIE is asked (42_aggregator R144). -/
theorem round1_nearest {t : Int} (h : t % 8 ≠ 4) (tie : Int → Bool) :
    -4 < 8 * round1 tie t - t ∧ 8 * round1 tie t - t < 4 ∧ ∀ tie', round1 tie' t = round1 tie t := by
  obtain hlt | hgt := Int.lt_or_gt_of_ne h
  · have hr := round1_of_lt (t := t) (by omega)
    rw [hr tie]
    exact ⟨by omega, by omega, hr⟩
  · have hr := round1_of_gt hgt
    rw [hr tie]
    exact ⟨by omega, by omega, hr⟩

/-! ## The status of a cycle -/

theorem status_ne_of_pollStatus {i : Instr} {st : Status} (h : pollStatus i = some st) :
    st ≠ .reset ∧ st ≠ .halted ∧ st ≠ .stored ∧ st ≠ .emit := by
  obtain rfl | rfl | rfl := pollStatus_range h
  · decide
  · decide
  · decide

theorem status_eq_reset_iff (i : Instr) (s : State) : (outputOf i s).status = .reset ↔ i = .reset := by
  rw [outputOf]
  cases cycleCase i s with
  | reset hi h => rw [h]; simp [hi]
  | ignored hi _ h => rw [h]; simp [hi]
  | halts hi _ h => rw [h]; simp [hi]
  | quiet st hst _ _ h =>
    obtain ⟨hreset, _⟩ := status_ne_of_pollStatus hst
    rw [h]; simp [hreset, ne_reset_of_pollStatus hst]
  | stores f hf _ _ h => rw [h]; simp [ne_reset_of_pollStatus (pollStatus_of_field hf)]
  | emits v hf _ _ h => rw [h]; simp [ne_reset_of_pollStatus (pollStatus_of_field hf)]

theorem status_eq_halted_iff (i : Instr) (s : State) :
    (outputOf i s).status = .halted ↔ i ≠ .reset ∧ (s.run = .halted ∨ i = .cancel) := by
  rw [outputOf]
  cases cycleCase i s with
  | reset hi h => rw [h]; simp [hi]
  | ignored hi hrun h => rw [h]; simp [hi, hrun]
  | halts hi _ h => rw [h]; simp [hi]
  | quiet st hst hrun _ h =>
    obtain ⟨_, hhalted, _⟩ := status_ne_of_pollStatus hst
    rw [h]; simp [hhalted, hrun, ne_cancel_of_pollStatus hst]
  | stores f hf hrun _ h => rw [h]; simp [hrun, ne_cancel_of_pollStatus (pollStatus_of_field hf)]
  | emits v hf hrun _ h => rw [h]; simp [hrun, ne_cancel_of_pollStatus (pollStatus_of_field hf)]

/-- `ST_NODATA` and `ST_UNAVAIL` in a running block are the statuses of their own poll operations alone. -/
theorem status_eq_iff_pollStatus {s : State} (hrun : s.run = .running) (i : Instr) {st : Status}
    (hst : st = .noData ∨ st = .unavail) : (outputOf i s).status = st ↔ pollStatus i = some st := by
  have hne : .reset ≠ st ∧ .halted ≠ st ∧ .stored ≠ st ∧ .emit ≠ st ∧ .chkFail ≠ st := by
    obtain rfl | rfl := hst
    · decide
    · decide
  obtain ⟨hreset, hhalted, hstored, hemit, hchk⟩ := hne
  rw [outputOf]
  cases cycleCase i s with
  | reset hi h => rw [h]; simp [hi, pollStatus, hreset]
  | ignored _ hhalt _ => rw [hrun] at hhalt; cases hhalt
  | halts hi _ h => rw [h]; simp [hi, pollStatus, hhalted]
  | quiet st' hst' _ _ h => rw [h]; simp [hst']
  | stores f hf _ _ h => rw [h]; simp [pollStatus_of_field hf, hstored, hchk]
  | emits v hf _ _ h => rw [h]; simp [pollStatus_of_field hf, hemit, hchk]

/-- What the ports show of a `REPORT` cycle of a running block (43_pipeline R172). -/
theorem outputOf_report_cases {s : State} (hrun : s.run = .running) (raw : Bytes8) :
    (¬ passesChecks (transform s.params raw) ∧ outputOf (.report raw) s = ⟨.chkFail, none⟩) ∨
    (passesChecks (transform s.params raw) ∧ outputOf (.report raw) s = ⟨.stored, none⟩) ∨
    (passesChecks (transform s.params raw) ∧ (transform s.params raw).b0 = 0x50 ∧
      ∃ r, outputOf (.report raw) s = ⟨.emit, some r⟩) := by
  by_cases hvalid : passesChecks (transform s.params raw)
  · have hcycle := cycle_of_fieldOfInstr (i := .report raw) hrun (decodeReport_toOption_of_passesChecks hvalid)
    rw [outputOf, hcycle]
    obtain ⟨hcode, _, h⟩ | ⟨_, h⟩ := observeCycle_cases (extractField (transform s.params raw)).code
      (extractField (transform s.params raw)).value s
    · exact .inr (.inr ⟨hvalid, hcode, _, congrArg CycleResult.out h⟩)
    · exact .inr (.inl ⟨hvalid, congrArg CycleResult.out h⟩)
  · exact .inl ⟨hvalid, (exec_and_outputOf_of_raiseError (cycle_report_of_not_passesChecks hrun hvalid)).2⟩

/-! ## The pins -/

/-- A Reading is shown exactly with `ST_EMIT`, and it is the one that EMIT builds (43_pipeline R174). -/
theorem outputOf_cases (i : Instr) (s : State) :
    (∃ st, st ≠ .emit ∧ outputOf i s = ⟨st, none⟩) ∨ ∃ v t, outputOf i s = ⟨.emit, some (buildReading v t)⟩ := by
  rw [outputOf]
  cases cycleCase i s with
  | reset _ h => exact .inl ⟨.reset, by decide, by rw [h, endCycle_out]⟩
  | ignored _ _ h => exact .inl ⟨.halted, by decide, by rw [h, endCycle_out]⟩
  | halts _ _ h => exact .inl ⟨.halted, by decide, by rw [h, endCycle_out]⟩
  | quiet st hst _ _ h =>
    obtain ⟨_, _, _, hemit⟩ := status_ne_of_pollStatus hst
    exact .inl ⟨st, hemit, by rw [h, endCycle_out]⟩
  | stores _ _ _ _ h => exact .inl ⟨.stored, by decide, by rw [h, endCycle_out]⟩
  | emits v _ _ _ h => exact .inr ⟨v, s.val.read Config.codeTemp, by rw [h, endCycle_out]⟩

theorem ofBool_eq_one_iff (b : Bool) : BitVec.ofBool b = 1 ↔ b = true := by
  cases b <;> decide

theorem pins_none (st : Status) : (OutRecord.mk st none).pins = ⟨st.code, 0, 0, 0, 0⟩ := rfl

theorem pins_some (st : Status) (r : Reading) :
    (OutRecord.mk st (some r)).pins =
      ⟨st.code, 1, r.co2, BitVec.ofBool r.tempValid, BitVec.ofInt 20 r.tempT80⟩ := rfl

theorem code_ne_seven (st : Status) : st.code ≠ 7 := by
  cases st <;> decide

/-- No Reading's temperature is narrowed at the pins: 0 and every T80 fit 20 bits (42_aggregator R155). -/
theorem toInt_ofInt_tempT80 (v : U16) (t : Option U16) :
    (BitVec.ofInt 20 (buildReading v t).tempT80).toInt = (buildReading v t).tempT80 := by
  cases t with
  | none => exact toInt_ofInt_twenty (x := 0) (by decide) (by decide)
  | some tv => exact toInt_ofInt_tconv tv

/-- The pins of an output record that a cycle can show (43_pipeline R174). -/
theorem pins_outputOf (i : Instr) (s : State) :
    ((outputOf i s).pins.outValid = 1 ↔ (outputOf i s).status = .emit) ∧
    ((outputOf i s).pins.outValid = 0 →
      (outputOf i s).reading = none ∧ (outputOf i s).pins.outCo2 = 0 ∧ (outputOf i s).pins.outTempValid = 0 ∧
        (outputOf i s).pins.outT80 = 0) ∧
    ((outputOf i s).pins.outValid = 1 → ∃ r : Reading, (outputOf i s).reading = some r ∧
      (outputOf i s).pins.outCo2 = r.co2 ∧ (outputOf i s).pins.outT80.toInt = r.tempT80 ∧
      ((outputOf i s).pins.outTempValid = 1 ↔ r.tempValid = true)) := by
  obtain ⟨st, hst, h⟩ | ⟨v, t, h⟩ := outputOf_cases i s
  · rw [h, pins_none]
    refine ⟨iff_of_false (show (0 : BitVec 1) ≠ 1 by decide) hst, fun _ => ⟨rfl, rfl, rfl, rfl⟩, fun hvalid => ?_⟩
    exact absurd hvalid (show (0 : BitVec 1) ≠ 1 by decide)
  · rw [h, pins_some]
    refine ⟨iff_of_true rfl rfl, fun hvalid => ?_, fun _ => ⟨_, rfl, rfl, toInt_ofInt_tempT80 v t, ?_⟩⟩
    · exact absurd hvalid (show (1 : BitVec 1) ≠ 0 by decide)
    · exact ofBool_eq_one_iff _

theorem pins_status (o : OutRecord) : o.pins.status = o.status.code := by
  obtain ⟨st, r⟩ := o
  cases r with
  | none => rfl
  | some r => rfl

end Machine

/-- Settles O35: `5 * v - 21852` over the rationals, and over the 2^16 values its range lies within 20 bits. -/
theorem temperatureConversionIsExact : Obligations.TemperatureConversionIsExact := by
  intro v
  obtain ⟨hlo, hhi⟩ := Machine.tconv_bounds v
  exact ⟨Machine.tconv_div_eighty v, hlo, hhi, Machine.toInt_ofInt_tconv v, Machine.tconv_ne_zero v⟩

/-- Settles O36: ROUND1 by the remainder of T80 modulo 8, which is 4 exactly for the multiples of 8. -/
theorem roundedTenthIsNearest : Obligations.RoundedTenthIsNearest := by
  intro tie v
  have hhalf := Machine.tconv_emod_eight v
  exact ⟨hhalf, fun hne => Machine.round1_nearest (hhalf.not.mpr hne) tie,
    fun heq => Machine.round1_of_half (hhalf.mpr heq) tie⟩

/-- Settles O37: by the cases of the cycle, each with its status and with a Reading at `ST_EMIT` alone. -/
theorem outputPinsFollowTheStatus : Obligations.OutputPinsFollowTheStatus := by
  refine ⟨⟨rfl, rfl, rfl, rfl, rfl, rfl, rfl⟩, fun i s => ?_, fun i s => ?_⟩
  · refine ⟨Machine.status_eq_reset_iff i s, Machine.status_eq_halted_iff i s, fun hrun => ⟨?_, ?_, ?_⟩⟩
    · rw [Machine.status_eq_iff_pollStatus hrun i (.inl rfl), Machine.pollStatus_eq_noData_iff]
    · rw [Machine.status_eq_iff_pollStatus hrun i (.inr rfl), Machine.pollStatus_eq_unavail_iff]
    · rintro raw rfl
      obtain ⟨hvalid, h⟩ | ⟨hvalid, h⟩ | ⟨hvalid, hcode, r, h⟩ := Machine.outputOf_report_cases hrun raw
      · simp [h, hvalid]
      · simp [h, hvalid]
      · simp [h, hvalid, hcode]
  · have hstatus := Machine.pins_status (Machine.outputOf i s)
    exact ⟨hstatus, hstatus ▸ Machine.code_ne_seven _, Machine.pins_outputOf i s⟩

/-- Settles O38: the only cycles with these statuses are polls without a field, which keep the state. -/
theorem errorCyclesArePrecise : Obligations.ErrorCyclesArePrecise := by
  intro i s herr
  rw [Machine.outputOf] at herr
  cases Machine.cycleCase i s with
  | quiet st _ _ _ h =>
    obtain ⟨hexec, hout⟩ := Machine.exec_and_outputOf_of_cycle h
    exact ⟨hexec, by rw [hout]⟩
  | reset _ h => simp [h] at herr
  | ignored _ _ h => simp [h] at herr
  | halts _ _ h => simp [h] at herr
  | stores _ _ _ _ h => simp [h] at herr
  | emits _ _ _ _ h => simp [h] at herr

/-- Settles O26: the cycle of `CANCEL` halts, a halted block ignores all but `RESET`, and `cancel` without `rst` selects
it. -/
theorem cancelHaltsTheBlock : Obligations.CancelHaltsTheBlock := by
  refine ⟨fun s hrun => ?_, fun i s hrun hi => ?_, fun polls d => ?_⟩
  · obtain ⟨hexec, hout⟩ := Machine.exec_and_outputOf_of_cycle (Machine.cycle_cancel_of_running hrun)
    exact ⟨hout, _, hexec, rfl, rfl, rfl⟩
  · exact ⟨Machine.exec_of_halted hrun hi, Machine.outputOf_of_halted hrun hi⟩
  · exact decodePort_of_cancel (BitVec.getLsbD_append.trans rfl) (BitVec.getLsbD_append.trans rfl)

/-- Settles O28: the values that `State.reset` is written with, and `RESET` keeps the parameters. -/
theorem resetStateHoldsTheSpecValues : Obligations.ResetStateHoldsTheSpecValues := by
  refine ⟨rfl, fun c => Machine.Memory.read_nil c, rfl, rfl, rfl, rfl, fun s t ht => ?_⟩
  rw [← (Machine.exec_reset_eq_next_iff s t).mp ht, Machine.installReset_params]

end Sys2Proof

/-! The invariant of the state, the phases and the rules of one step (10_state R22 to R24, R37; 42_aggregator R140 to
R157). -/

namespace Sys2Proof

namespace Machine

/-! ## What a field leaves unchanged -/

/-- STORE's frame: an observed field writes its own entry of VAL, whether it emits or not (42_aggregator R141). -/
theorem observeCycle_frame (code : Byte) (v : U16) (s : State) :
    ∃ t : State, (observeCycle code v s).state = t ∧ t.val = s.val.write code v ∧ t.run = s.run ∧
      t.params = s.params ∧ t.inputs = s.inputs ∧ t.halts = s.halts := by
  refine ⟨_, rfl, ?_⟩
  obtain ⟨_, _, h⟩ | ⟨_, h⟩ := observeCycle_cases code v s
  · rw [h]; exact ⟨rfl, rfl, rfl, rfl, rfl⟩
  · rw [h]; exact ⟨rfl, rfl, rfl, rfl, rfl⟩

theorem exists_exec_of_fieldOfInstr {s : State} (hrun : s.run = .running) {i : Instr} {code : Byte} {v : U16}
    (h : fieldOfInstr s.params i = some ⟨code, v⟩) :
    ∃ t, exec i s = .next t ∧ t.val.read code = some v ∧ (∀ c : Byte, c ≠ code → t.val.read c = s.val.read c) ∧
      t.run = s.run ∧ t.params = s.params ∧ t.inputs = s.inputs ∧ t.halts = s.halts := by
  obtain ⟨t, hstate, hval, hkept⟩ := observeCycle_frame code v s
  refine ⟨t, ?_, ?_, fun c hc => ?_, hkept⟩
  · rw [exec_eq_cycle, cycle_of_fieldOfInstr hrun h, hstate]
  · rw [hval, Memory.read_write_same]
  · rw [hval, Memory.read_write_other _ _ _ _ hc]

theorem isSome_read_write {m : Memory} {d : Byte} (h : (m.read d).isSome = true) (c : Byte) (v : U16) :
    ((m.write c v).read d).isSome = true := by
  rw [Memory.read_write]
  split
  · rfl
  · exact h

/-! ## INV1 and INV3 -/

theorem aggregatorInv_iff (s : State) :
    s.aggregatorInv = true ↔
      s.leCo2 = s.val.read Config.codeCo2 ∧
        (s.leTemp = none ∨ (s.val.read Config.codeTemp).isSome = true ∧ s.leCo2.isSome = true) := by
  rw [State.aggregatorInv, Bool.and_eq_true, decide_eq_true_eq, Bool.or_eq_true, Bool.and_eq_true,
    Option.isNone_iff_eq_none, memRead_eq, memRead_eq]

theorem leCo2_eq_of_aggregatorInv {s : State} (h : s.aggregatorInv = true) :
    s.leCo2 = s.val.read Config.codeCo2 :=
  ((aggregatorInv_iff s).mp h).1

theorem inv_iff (s : State) : s.inv = true ↔ s.val.wf = true ∧ (s.run = .running → s.aggregatorInv = true) := by
  rw [State.inv, Bool.and_eq_true, Bool.or_eq_true, beq_iff_eq]
  cases s.run with
  | running => simp
  | halted => simp

theorem inv_presented (s : State) (ins : List PortInput) : (s.presented ins).inv = s.inv := rfl

theorem aggregatorInv_installReset (s : State) : (installReset s).aggregatorInv = true := rfl

/-- A field that is stored only is no CO2 field, or writes the value that the entry already holds. -/
theorem aggregatorInv_store {s : State} (h : s.aggregatorInv = true) {f : DecodedField}
    (hold : f.code = Config.codeCo2 → s.leCo2 = some f.value) : (store f.code f.value s).aggregatorInv = true := by
  obtain ⟨hinv1, hinv3⟩ := (aggregatorInv_iff s).mp h
  rw [aggregatorInv_iff, store_leCo2, store_leTemp, store_val]
  constructor
  · rw [Memory.read_write]
    split
    · next hcode => exact hold hcode.symm
    · exact hinv1
  · exact hinv3.imp_right fun ⟨htemp, hco2⟩ => ⟨isSome_read_write htemp _ _, hco2⟩

/-- EMIT takes `LE_TEMP` from an entry that STORE of a CO2 field left as it was (42_aggregator R146). -/
theorem aggregatorInv_of_emit (s : State) (v : U16) :
    State.aggregatorInv
      { s with val := s.val.write Config.codeCo2 v, leCo2 := some v, leTemp := s.val.read Config.codeTemp } = true := by
  rw [aggregatorInv_iff, Memory.read_write_same, Memory.read_write_other _ _ _ _ (by decide)]
  refine ⟨rfl, ?_⟩
  cases s.val.read Config.codeTemp with
  | none => exact .inl rfl
  | some t => exact .inr ⟨rfl, rfl⟩

/-- Every operation keeps the invariant. -/
theorem inv_cycle {s : State} (hinv : s.inv = true) (i : Instr) : (cycle i s).state.inv = true := by
  obtain ⟨hwf, hagg⟩ := (inv_iff s).mp hinv
  cases cycleCase i s with
  | reset _ h =>
    rw [h, endCycle_state, inv_iff]
    exact ⟨Memory.wf_nil, fun _ => aggregatorInv_installReset s⟩
  | ignored _ _ h => rw [h, endCycle_state, hinv]
  | halts _ _ h =>
    rw [h, endCycle_state, inv_iff, haltBlock_run]
    exact ⟨Memory.wf_ofEntries _, nofun⟩
  | quiet _ _ _ _ h => rw [h, endCycle_state, hinv]
  | stores f _ hrun hold h =>
    rw [h, endCycle_state, inv_iff]
    exact ⟨Memory.wf_write _ _ _ hwf, fun _ => aggregatorInv_store (hagg hrun) hold⟩
  | emits v _ _ _ h =>
    rw [h, endCycle_state, inv_iff]
    exact ⟨Memory.wf_write _ _ _ hwf, fun _ => aggregatorInv_of_emit s v⟩

/-! ## The emission condition, gated and literal -/

/-- After STORE of another code the literal condition compares `LE_CO2` with itself; after STORE of a CO2 field both
conditions compare it with the new value (42_aggregator R157). -/
theorem condB_store {s : State} (h : s.aggregatorInv = true) (code : Byte) (v : U16) :
    condB (store code v s) = emitCond code v (store code v s) := by
  have hinv1 := leCo2_eq_of_aggregatorInv h
  rw [condB, emitCond, memRead_eq, store_val, store_leCo2, Memory.read_write]
  by_cases hcode : code = Config.codeCo2
  · simp [hcode]
  · rw [if_neg (Ne.symm hcode), ← hinv1]
    cases s.leCo2 with
    | none => simp [hcode]
    | some w => simp [hcode]

/-! ## The rules of one cycle -/

theorem leCo2_leTemp_of_no_reading {i : Instr} {s : State} (hreset : i ≠ .reset) (hcancel : i ≠ .cancel)
    (hout : (cycle i s).out.reading = none) :
    (cycle i s).state.leCo2 = s.leCo2 ∧ (cycle i s).state.leTemp = s.leTemp := by
  cases cycleCase i s with
  | reset hi _ => exact absurd hi hreset
  | halts hi _ _ => exact absurd hi hcancel
  | ignored _ _ h => rw [h]; exact ⟨rfl, rfl⟩
  | quiet _ _ _ _ h => rw [h]; exact ⟨rfl, rfl⟩
  | stores _ _ _ _ h => rw [h]; exact ⟨rfl, rfl⟩
  | emits _ _ _ _ h => rw [h] at hout; cases hout

theorem isSome_read_cycle {i : Instr} {s : State} (hreset : i ≠ .reset) (hcancel : i ≠ .cancel) {c : Byte}
    (hsome : (s.val.read c).isSome = true) : ((cycle i s).state.val.read c).isSome = true := by
  cases cycleCase i s with
  | reset hi _ => exact absurd hi hreset
  | halts hi _ _ => exact absurd hi hcancel
  | ignored _ _ h => rw [h]; exact hsome
  | quiet _ _ _ _ h => rw [h]; exact hsome
  | stores f _ _ _ h => rw [h]; exact isSome_read_write hsome _ _
  | emits v _ _ _ h => rw [h]; exact isSome_read_write hsome _ _

theorem run_cycle_of_halted {s : State} (hrun : s.run = .halted) (i : Instr) :
    (cycle i s).state.run = .running ↔ i = .reset := by
  by_cases hi : i = .reset
  · rw [hi, cycle_reset]
    exact iff_of_true rfl rfl
  · rw [cycle_of_halted hrun hi, endCycle_state, hrun]
    exact iff_of_false nofun hi

theorem run_cycle_of_running {s : State} (hrun : s.run = .running) (i : Instr) :
    (cycle i s).state.run = .halted ↔ i = .cancel := by
  cases cycleCase i s with
  | reset hi h => rw [h]; simp [hi]
  | ignored _ hhalt _ => rw [hrun] at hhalt; cases hhalt
  | halts hi _ h => rw [h]; simp [hi]
  | quiet _ hst _ _ h => rw [h]; simp [hrun, ne_cancel_of_pollStatus hst]
  | stores _ hf _ _ h => rw [h]; simp [hrun, ne_cancel_of_pollStatus (pollStatus_of_field hf)]
  | emits _ hf _ _ h => rw [h]; simp [hrun, ne_cancel_of_pollStatus (pollStatus_of_field hf)]

/-- The port-level operation map selects port-level operations alone: one that delivers a field is a `REPORT`
(30_encoding R72). -/
theorem decodePort_eq_report_of_field {c : Params} {i : PortInput} {f : DecodedField}
    (h : fieldOfInstr c (decodePort i) = some f) : ∃ raw, decodePort i = .report raw := by
  have hop := decodePort_eq i
  split_ifs at hop
  · rw [hop] at h; cases h
  · rw [hop] at h; cases h
  · rw [hop] at h; cases h
  · exact ⟨_, hop⟩
  · rw [hop] at h; cases h

/-- A Reading comes from a new CO2 field of a running block (42_aggregator R148). -/
theorem eq_of_reading_eq_some {i : Instr} {s : State} {r : Reading} (hr : (cycle i s).out.reading = some r) :
    s.run = .running ∧ fieldOfInstr s.params i = some ⟨Config.codeCo2, r.co2⟩ ∧ s.leCo2 ≠ some r.co2 ∧
      r = buildReading r.co2 (s.val.read Config.codeTemp) ∧
      (cycle i s).state =
        { s with
          val := s.val.write Config.codeCo2 r.co2
          leCo2 := some r.co2
          leTemp := s.val.read Config.codeTemp } := by
  cases cycleCase i s with
  | emits v hf hrun hnew h =>
    rw [h] at hr
    obtain rfl := Option.some.inj hr
    exact ⟨hrun, hf, hnew, rfl, by rw [h]; rfl⟩
  | reset _ h => rw [h] at hr; cases hr
  | ignored _ _ h => rw [h] at hr; cases hr
  | halts _ _ h => rw [h] at hr; cases hr
  | quiet _ _ _ _ h => rw [h] at hr; cases hr
  | stores _ _ _ _ h => rw [h] at hr; cases hr

/-! ## The rows of the phase table -/

theorem phase_of_exec_obsCo2 {s t : State} (hrun : s.run = .running) (hinv : s.aggregatorInv = true) {v : U16}
    {u5 u6 u7 : Byte} (ht : exec (.obsCo2 v u5 u6 u7) s = .next t) :
    phase t = .active ∧ t.leCo2 = some v ∧
      (phase s = .idle → (outputOf (.obsCo2 v u5 u6 u7) s).status = .emit) ∧
      ((outputOf (.obsCo2 v u5 u6 u7) s).status = .emit ↔ s.leCo2 ≠ some v) := by
  refine ⟨phase_of_read_eq_some (read_co2_of_exec_obsCo2 hrun ht), ?_⟩
  by_cases hold : s.leCo2 = some v
  · obtain ⟨hexec, hout⟩ := obsCo2_of_not_new hrun hold u5 u6 u7
    obtain rfl := Host.Outcome.next.inj (hexec.symm.trans ht)
    rw [hout]
    refine ⟨hold, fun hidle => ?_, iff_of_false nofun (Classical.not_not.mpr hold)⟩
    rw [leCo2_eq_none_of_idle hinv hidle] at hold
    cases hold
  · obtain ⟨hexec, hout⟩ := obsCo2_of_new hrun hold u5 u6 u7
    obtain rfl := Host.Outcome.next.inj (hexec.symm.trans ht)
    rw [hout]
    exact ⟨rfl, fun _ => rfl, iff_of_true rfl hold⟩

/-- A field of another code keeps the entry that the phase is read off. -/
theorem phase_of_exec_other_field {s t : State} (hrun : s.run = .running) {i : Instr} {f : DecodedField}
    (hf : fieldOfInstr s.params i = some f) (hcode : f.code ≠ Config.codeCo2) (ht : exec i s = .next t) :
    phase t = phase s ∧ t.leCo2 = s.leCo2 ∧ outputOf i s = ⟨.stored, none⟩ := by
  have hcycle := (cycle_of_fieldOfInstr hrun hf).trans
    (observeCycle_of_not_new fun h => absurd h hcode)
  obtain ⟨hexec, hout⟩ := exec_and_outputOf_of_cycle hcycle
  obtain rfl := Host.Outcome.next.inj (hexec.symm.trans ht)
  exact ⟨phase_congr (Memory.read_write_other _ _ _ _ hcode.symm), rfl, hout⟩

end Machine

/-- Settles O33: the three operations deliver the field, and OBSERVE of a field writes its entry alone. -/
theorem observedFieldWritesOneEntry : Obligations.ObservedFieldWritesOneEntry := by
  rintro s code v u5 u6 u7 i hrun (⟨rfl, rfl⟩ | ⟨rfl, rfl⟩ | ⟨_, _, rfl⟩)
  · exact Machine.exists_exec_of_fieldOfInstr hrun rfl
  · exact Machine.exists_exec_of_fieldOfInstr hrun rfl
  · exact Machine.exists_exec_of_fieldOfInstr hrun rfl

/-- Settles O34: a valid plaintext is an OBSERVE of its field, and `VALUE` is the one 16-bit word with that number. -/
theorem reportCycleFollowsTheStepFunction : Obligations.ReportCycleFollowsTheStepFunction := by
  rintro raw p s hrun rfl
  refine ⟨fun h => ?_, fun v hvalid hv => ?_⟩
  · exact Machine.exec_and_outputOf_of_raiseError (Machine.cycle_report_of_not_passesChecks hrun h)
  · obtain rfl := Machine.eq_valueOf hv
    have hcycle := Machine.cycle_of_fieldOfInstr (i := .report raw) hrun
      (Machine.decodeReport_toOption_of_passesChecks hvalid)
    obtain ⟨hcode, hnew, h⟩ | ⟨hold, h⟩ := Machine.observeCycle_cases (Machine.transform s.params raw).b0
      (Machine.valueOf (Machine.transform s.params raw).b1 (Machine.transform s.params raw).b2) s
    · refine ⟨fun _ => ?_, fun hnot => absurd ⟨hcode, hnew⟩ hnot⟩
      exact Machine.exec_and_outputOf_of_cycle (hcycle.trans h)
    · refine ⟨fun hyes => absurd hyes hold, fun _ => ?_⟩
      exact Machine.exec_and_outputOf_of_cycle (hcycle.trans h)

/-- Settles O41: by whether the stored code is that of CO2. -/
theorem gatedAndLiteralConditionsAgree : Obligations.GatedAndLiteralConditionsAgree := by
  intro s code v _ hinv
  exact Machine.condB_store hinv code v

/-- Settles O42: by the cases of the cycle; the invariant says nothing of the samples that lie ahead. -/
theorem everyStepKeepsTheInvariant : Obligations.EveryStepKeepsTheInvariant := by
  intro s t hinv ht
  rw [Machine.eq_of_step ht, Machine.inv_presented, Machine.inv_cycle hinv]

/-- Settles O43: the table is empty, and nothing was emitted. -/
theorem resetStateHasTheInvariant : Obligations.ResetStateHasTheInvariant :=
  (Machine.inv_iff _).mpr ⟨Machine.State.reset_val_wf, fun _ => rfl⟩

/-- Settles O39: a Reading comes from a new CO2 field, which at the pins is a `REPORT` of a valid CO2 frame. -/
theorem onlyANewCo2FrameEmits : Obligations.OnlyANewCo2FrameEmits := by
  intro s t r ht hr
  rw [Machine.output_eq] at hr
  obtain ⟨hrun, hf, hnew, _, hstate⟩ := Machine.eq_of_reading_eq_some hr
  obtain ⟨raw, hop⟩ := Machine.decodePort_eq_report_of_field hf
  rw [Machine.eq_of_step ht, hstate]
  refine ⟨hrun, hnew, rfl, rfl, raw, _, hop, rfl, ?_⟩
  rw [Machine.nextOp, hop] at hf
  obtain ⟨hvalid, hfield⟩ := (Machine.decodeReport_toOption_eq_some_iff _ _).mp hf
  obtain ⟨hcode, hvalue⟩ := Machine.DecodedField.mk.inj hfield
  exact ⟨hvalid, hcode, hvalue ▸ Machine.valueOf_toNat _ _⟩

/-- Settles O40: every other cycle that shows no Reading keeps both. -/
theorem lastEmittedChangesOnlyByEmission : Obligations.LastEmittedChangesOnlyByEmission := by
  intro s t ht hreset hcancel hout
  rw [Machine.output_eq] at hout
  rw [Machine.eq_of_step ht]
  exact Machine.leCo2_leTemp_of_no_reading hreset hcancel hout

/-- Settles O44: a poll keeps the table or writes one entry, which is then present. -/
theorem noEntryDisappears : Obligations.NoEntryDisappears := by
  intro s t c ht hreset hcancel hsome
  rw [Machine.eq_of_step ht]
  exact Machine.isSome_read_cycle hreset hcancel hsome

/-- Settles O46: the run flag after the cycle, from either run state. -/
theorem onlyCancelHaltsAndOnlyResetResumes : Obligations.OnlyCancelHaltsAndOnlyResetResumes := by
  intro s t ht
  rw [Machine.eq_of_step ht]
  exact ⟨fun hrun => Machine.run_cycle_of_halted hrun _, fun hrun => Machine.run_cycle_of_running hrun _⟩

/-- Settles O47: row by row; only a CO2 field writes the entry that the phase is read off. -/
theorem phaseTransitionsFollowTheTable : Obligations.PhaseTransitionsFollowTheTable := by
  intro s t i hrun hinv hwf ht
  refine ⟨?_, ?_, ?_⟩
  · rintro v u5 u6 u7 rfl
    exact Machine.phase_of_exec_obsCo2 hrun hinv ht
  · rintro (⟨v, u5, u6, u7, rfl⟩ | ⟨c, v, u5, u6, u7, rfl⟩)
    · exact Machine.phase_of_exec_other_field hrun rfl (show Config.codeTemp ≠ Config.codeCo2 by decide) ht
    · rw [Instr.wellFormed, Bool.and_eq_true, bne_iff_ne] at hwf
      obtain ⟨hco2, _⟩ := hwf
      exact Machine.phase_of_exec_other_field hrun rfl hco2 ht
  · intro hquiet
    have hcycle : ∃ st, Machine.cycle i s = Machine.endCycle st none s := by
      obtain ⟨p, rfl⟩ | rfl | rfl := hquiet
      · exact ⟨_, Machine.cycle_of_no_fieldOfInstr hrun rfl rfl⟩
      · exact ⟨_, Machine.cycle_of_no_fieldOfInstr hrun rfl rfl⟩
      · exact ⟨_, Machine.cycle_of_no_fieldOfInstr hrun rfl rfl⟩
    obtain ⟨st, hst⟩ := hcycle
    obtain ⟨hexec, _⟩ := Machine.exec_and_outputOf_of_cycle hst
    obtain rfl := Host.Outcome.next.inj (hexec.symm.trans ht)
    exact ⟨rfl, rfl, rfl⟩

end Sys2Proof

/-! Runs over the samples that lie ahead: what VAL, `LE_CO2` and the Readings are after any polls (10_state R21, R22;
42_aggregator R145 to R149; 70_reset_and_hazards R228), and what the outputs depend on (10_state R38). -/

namespace Sys2Proof

namespace Machine

/-! ## A run, sample by sample -/

theorem step_presented_cons (s : State) (i : PortInput) (rest : List PortInput) :
    step (s.presented (i :: rest)) = .next ((cycle (decodePort i) s).state.presented rest) := by
  have hcycle := cycle_presented (decodePort i) s (i :: rest)
  have hop : nextOp (s.presented (i :: rest)) = decodePort i := rfl
  rw [step_eq, hop, hcycle]
  rfl

/-- The Readings of a run are that of its first cycle, if any, and then those of the run from the next state. -/
theorem readings_presented_cons (s : State) (i : PortInput) (rest : List PortInput) (k : Nat) :
    readings (k + 1) (s.presented (i :: rest)) =
      (cycle (decodePort i) s).out.reading.toList ++ readings k ((cycle (decodePort i) s).state.presented rest) :=
  readings_succ_of_cycle (cycle_presented (decodePort i) s rest) k

/-- The state after these samples. -/
def afterSamples (s : State) (ins : List PortInput) : State :=
  ins.foldl (fun s i => (cycle (decodePort i) s).state) s

theorem run_presented_append (s : State) (ins rest : List PortInput) :
    Sys2Proof.core.run ins.length (s.presented (ins ++ rest)) = .next ((afterSamples s ins).presented rest) := by
  induction ins generalizing s with
  | nil => rfl
  | cons i ins ih => exact (run_succ_of_step (step_presented_cons s i (ins ++ rest)) _).trans (ih _)

theorem eq_of_run_presented {s t : State} {ins : List PortInput}
    (h : Sys2Proof.core.run ins.length (s.presented ins) = .next t) : t = (afterSamples s ins).presented [] := by
  have hrun := run_presented_append s ins []
  rw [List.append_nil] at hrun
  exact Host.Outcome.next.inj (h.symm.trans hrun)

/-! ## One poll of a running block -/

theorem ne_reset_of_isPoll {i : PortInput} (h : isPoll i = true) : decodePort i ≠ .reset := by
  rw [isPoll, Bool.and_eq_true, bne_iff_ne] at h
  exact h.1

theorem ne_cancel_of_isPoll {i : PortInput} (h : isPoll i = true) : decodePort i ≠ .cancel := by
  rw [isPoll, Bool.and_eq_true, bne_iff_ne, bne_iff_ne] at h
  exact h.2

theorem run_cycle_of_isPoll {s : State} (hrun : s.run = .running) {i : PortInput} (hpoll : isPoll i = true) :
    (cycle (decodePort i) s).state.run = .running := by
  have hhalt := (run_cycle_of_running hrun (decodePort i)).not.mpr (ne_cancel_of_isPoll hpoll)
  cases h : (cycle (decodePort i) s).state.run with
  | running => rfl
  | halted => exact absurd h hhalt

/-! ## VAL after polls -/

theorem latestValue_append (c : Byte) (fs gs : List DecodedField) :
    latestValue c (fs ++ gs) = (latestValue c gs).or (latestValue c fs) := by
  rw [latestValue, latestValue, latestValue, List.reverse_append, List.find?_append, Option.map_or]

theorem latestValue_singleton (c : Byte) (f : DecodedField) :
    latestValue c [f] = if f.code = c then some f.value else none := by
  by_cases h : f.code = c
  · simp [latestValue, h]
  · simp [latestValue, h]

theorem fieldsOf_cons (c : Params) (i : PortInput) (ins : List PortInput) :
    fieldsOf c (i :: ins) = (fieldOf c i).toList ++ fieldsOf c ins := by
  rw [fieldsOf, List.filterMap_cons]
  cases fieldOf c i with
  | none => rfl
  | some f => rfl

theorem read_cycle_of_isPoll {s : State} (hrun : s.run = .running) {i : PortInput} (hpoll : isPoll i = true)
    (c : Byte) :
    (cycle (decodePort i) s).state.val.read c =
      (latestValue c (fieldOf s.params i).toList).or (s.val.read c) := by
  cases hf : fieldOf s.params i with
  | none =>
    obtain ⟨_, h⟩ := cycle_of_no_field hrun hpoll hf
    rw [h]
    rfl
  | some f =>
    obtain ⟨t, hstate, hval, _⟩ := observeCycle_frame f.code f.value s
    rw [cycle_of_field hrun hf, hstate, hval, Memory.read_write, Option.toList_some, latestValue_singleton]
    by_cases hc : f.code = c
    · rw [if_pos hc.symm, if_pos hc, Option.some_or]
    · rw [if_neg (Ne.symm hc), if_neg hc, Option.none_or]

/-- An entry of VAL is the value of the latest field with its code (10_state R21). -/
theorem read_afterSamples {s : State} (hrun : s.run = .running) {ins : List PortInput}
    (hpoll : ∀ i ∈ ins, isPoll i = true) (c : Byte) :
    (afterSamples s ins).val.read c = (latestValue c (fieldsOf s.params ins)).or (s.val.read c) := by
  induction ins generalizing s with
  | nil => rfl
  | cons i ins ih =>
    obtain ⟨hpolli, hpollins⟩ := List.forall_mem_cons.mp hpoll
    have hrest := ih (run_cycle_of_isPoll hrun hpolli) hpollins
    rw [cycle_params, read_cycle_of_isPoll hrun hpolli, ← Option.or_assoc, ← latestValue_append,
      ← fieldsOf_cons] at hrest
    exact hrest

/-! ## `LE_CO2` after polls -/

theorem leCo2_cycle_of_isPoll (s : State) {i : PortInput} (hpoll : isPoll i = true) :
    (cycle (decodePort i) s).state.leCo2 = ((cycle (decodePort i) s).out.reading.map (·.co2)).or s.leCo2 := by
  cases hr : (cycle (decodePort i) s).out.reading with
  | none => exact (leCo2_leTemp_of_no_reading (ne_reset_of_isPoll hpoll) (ne_cancel_of_isPoll hpoll) hr).1
  | some r =>
    obtain ⟨_, _, _, _, hstate⟩ := eq_of_reading_eq_some hr
    rw [hstate]
    rfl

/-- `LE_CO2` is the CO2 value of the last Reading (10_state R22). -/
theorem leCo2_afterSamples (s : State) {ins : List PortInput} (hpoll : ∀ i ∈ ins, isPoll i = true) :
    (afterSamples s ins).leCo2 = ((readings ins.length (s.presented ins)).getLast?.map (·.co2)).or s.leCo2 := by
  induction ins generalizing s with
  | nil => rfl
  | cons i ins ih =>
    obtain ⟨hpolli, hpollins⟩ := List.forall_mem_cons.mp hpoll
    have hlast : (cycle (decodePort i) s).out.reading.toList.getLast? = (cycle (decodePort i) s).out.reading := by
      cases (cycle (decodePort i) s).out.reading with
      | none => rfl
      | some r => rfl
    have hrest := ih (cycle (decodePort i) s).state hpollins
    rw [leCo2_cycle_of_isPoll s hpolli, ← Option.or_assoc, ← Option.map_or] at hrest
    rw [List.length_cons, readings_presented_cons, List.getLast?_append, hlast]
    exact hrest

/-! ## Consecutive Readings -/

theorem readings_of_halted {s : State} (hrun : s.run = .halted) {ins : List PortInput}
    (hins : ∀ i ∈ ins, decodePort i ≠ .reset) : readings ins.length (s.presented ins) = [] := by
  induction ins with
  | nil => rfl
  | cons i ins ih =>
    obtain ⟨hi, hrest⟩ := List.forall_mem_cons.mp hins
    rw [List.length_cons, readings_presented_cons, cycle_of_halted hrun hi]
    exact ih hrest

theorem halted_of_cycle_cancel (s : State) :
    (cycle .cancel s).state.run = .halted ∧ (cycle .cancel s).out.reading = none := by
  cases hrun : s.run with
  | running => rw [cycle_cancel_of_running hrun]; exact ⟨rfl, rfl⟩
  | halted => rw [cycle_of_halted hrun (by decide)]; exact ⟨hrun, rfl⟩

/-- The CO2 values of the Readings, after the last emitted one, differ from one to the next (42_aggregator R145). -/
theorem isChain_readings (s : State) {ins : List PortInput} (hins : ∀ i ∈ ins, decodePort i ≠ .reset) :
    List.IsChain (· ≠ ·) (s.leCo2 :: (readings ins.length (s.presented ins)).map fun r => some r.co2) := by
  induction ins generalizing s with
  | nil => exact List.isChain_singleton _
  | cons i ins ih =>
    obtain ⟨hi, hrest⟩ := List.forall_mem_cons.mp hins
    have htail := ih (cycle (decodePort i) s).state hrest
    rw [List.length_cons, readings_presented_cons]
    by_cases hcancel : decodePort i = .cancel
    · obtain ⟨hhalt, hnone⟩ := halted_of_cycle_cancel s
      rw [hcancel, hnone, readings_of_halted hhalt hrest]
      exact List.isChain_singleton _
    · cases hr : (cycle (decodePort i) s).out.reading with
      | none =>
        obtain ⟨hle, _⟩ := leCo2_leTemp_of_no_reading hi hcancel hr
        rwa [hle] at htail
      | some r =>
        obtain ⟨_, _, hnew, _, hstate⟩ := eq_of_reading_eq_some hr
        rw [hstate] at htail ⊢
        exact List.isChain_cons_cons.mpr ⟨hnew, htail⟩

/-! ## Polls without a field -/

/-- Dropping the polls that deliver no field keeps the Readings (70_reset_and_hazards R228). -/
theorem readings_filter_fields {s : State} (hrun : s.run = .running) {ins : List PortInput}
    (hpoll : ∀ i ∈ ins, isPoll i = true) :
    readings ins.length (s.presented ins) =
      readings (ins.filter fun i => (fieldOf s.params i).isSome).length
        (s.presented (ins.filter fun i => (fieldOf s.params i).isSome)) := by
  induction ins generalizing s with
  | nil => rfl
  | cons i ins ih =>
    obtain ⟨hpolli, hpollins⟩ := List.forall_mem_cons.mp hpoll
    cases hf : fieldOf s.params i with
    | none =>
      rw [List.filter_cons_of_neg (by rw [hf]; decide), List.length_cons, readings_of_no_field hrun _ _ hpolli hf]
      exact ih hrun hpollins
    | some f =>
      have hrest := ih (run_cycle_of_isPoll hrun hpolli) hpollins
      rw [cycle_params] at hrest
      rw [List.filter_cons_of_pos (by rw [hf]; rfl), List.length_cons, List.length_cons, readings_presented_cons,
        readings_presented_cons, hrest]

/-! ## What the outputs depend on -/

/-- The two states agree on all that a cycle reads but its sample: the run flag, the parameters and, while running,
`LE_CO2` and `VAL[0x42]` (10_state R38). -/
structure AgreeOnRead (s s' : State) : Prop where
  run : s.run = s'.run
  params : s.params = s'.params
  leCo2 : s.run = .running → s.leCo2 = s'.leCo2
  temp : s.run = .running → s.val.read Config.codeTemp = s'.val.read Config.codeTemp

theorem AgreeOnRead.presented {s s' : State} (h : AgreeOnRead s s') (ins : List PortInput) :
    AgreeOnRead (s.presented ins) (s'.presented ins) :=
  ⟨h.run, h.params, h.leCo2, h.temp⟩

theorem agreeOnRead_installReset {s s' : State} (h : s.params = s'.params) :
    AgreeOnRead (installReset s) (installReset s') :=
  ⟨rfl, h, fun _ => rfl, fun _ => rfl⟩

theorem read_write_congr {m m' : Memory} {d : Byte} (h : m.read d = m'.read d) (c : Byte) (v : U16) :
    (m.write c v).read d = (m'.write c v).read d := by
  rw [Memory.read_write, Memory.read_write, h]

/-- States that agree show the same output and agree after every operation. -/
theorem AgreeOnRead.cycle {s s' : State} (hagree : AgreeOnRead s s') (i : Instr) :
    (cycle i s).out = (cycle i s').out ∧ AgreeOnRead (cycle i s).state (cycle i s').state := by
  obtain ⟨hruns, hparams, hle, htemp⟩ := id hagree
  cases cycleCase i s with
  | reset hi h =>
    rw [h, hi, cycle_reset]
    exact ⟨rfl, agreeOnRead_installReset hparams⟩
  | ignored hi hrun h =>
    rw [h, cycle_of_halted (hruns ▸ hrun) hi]
    exact ⟨rfl, hagree⟩
  | halts hi hrun h =>
    rw [h, hi, cycle_cancel_of_running (hruns ▸ hrun)]
    exact ⟨rfl, rfl, hparams, nofun, nofun⟩
  | quiet st hst hrun hf h =>
    rw [h, cycle_of_no_fieldOfInstr (hruns ▸ hrun) hst (hparams ▸ hf)]
    exact ⟨rfl, hagree⟩
  | stores f hf hrun hold h =>
    rw [h, cycle_of_fieldOfInstr (hruns ▸ hrun) (hparams ▸ hf), observeCycle_of_not_new (hle hrun ▸ hold)]
    exact ⟨rfl, hruns, hparams, hle, fun _ => read_write_congr (htemp hrun) _ _⟩
  | emits v hf hrun hnew h =>
    rw [h, cycle_of_fieldOfInstr (hruns ▸ hrun) (hparams ▸ hf), observeCycle_of_new (hle hrun ▸ hnew), htemp hrun]
    exact ⟨rfl, hruns, hparams, fun _ => rfl, fun _ => read_write_congr (htemp hrun) _ _⟩

theorem nextOp_congr {s s' : State} (h : s.inputs = s'.inputs) : nextOp s = nextOp s' := by
  rw [nextOp, nextOp, takeInput, takeInput, h]
  cases s'.inputs with
  | nil => rfl
  | cons i rest => rfl

theorem trace_succ (k : Nat) (s : State) :
    trace (k + 1) s = (cycle (nextOp s) s).out :: trace k ((cycle (nextOp s) s).state.presented s.inputs.tail) := by
  rw [trace, step_eq, output_eq]

/-- States that agree, with the same samples ahead, show the same outputs for any number of cycles. -/
theorem trace_congr (k : Nat) {s s' : State} (hagree : AgreeOnRead s s') (hins : s.inputs = s'.inputs) :
    trace k s = trace k s' := by
  induction k generalizing s s' with
  | zero => rfl
  | succ k ih =>
    obtain ⟨hout, hnext⟩ := hagree.cycle (nextOp s)
    rw [trace_succ, trace_succ, ← nextOp_congr hins, ← hins, hout, ih (hnext.presented _) rfl]

end Machine

/-- Settles O49: by induction over the samples; a halt ends the Readings, and a Reading's value is new. -/
theorem consecutiveReadingsDiffer : Obligations.ConsecutiveReadingsDiffer := by
  intro s ins hins
  exact Machine.isChain_readings s hins

/-- Settles O50: by induction over the polls; one without a field keeps the state and shows no Reading. -/
theorem noiseDoesNotChangeTheReadings : Obligations.NoiseDoesNotChangeTheReadings := by
  rintro s ins kept hrun hpoll rfl
  exact Machine.readings_filter_fields hrun hpoll

/-- Settles O51: by induction over the polls, each of which writes the entry of its field, if it delivers one. -/
theorem tableHoldsTheLatestField : Obligations.TableHoldsTheLatestField := by
  intro s t ins c hrun hpoll ht
  rw [Machine.eq_of_run_presented ht, Machine.presented_val, Machine.read_afterSamples hrun hpoll]

/-- Settles O52: by induction over the polls, each of which sets `LE_CO2` to the value of its Reading, if any. -/
theorem lastEmittedCo2IsTheLastReading : Obligations.LastEmittedCo2IsTheLastReading := by
  intro s t ins _ hpoll ht
  rw [Machine.eq_of_run_presented ht, Machine.presented_leCo2, Machine.leCo2_afterSamples s hpoll]
  refine ⟨rfl, fun hnone => ?_⟩
  rw [hnone, Option.or_none, Option.map_eq_none_iff, List.getLast?_eq_none_iff]

/-- Settles O53: the Reading carries `VAL[0x42]` of the state that its cycle starts from. -/
theorem readingCarriesTheLatestTemperature : Obligations.ReadingCarriesTheLatestTemperature := by
  intro s t pre i r hrun hpoll ht hr
  obtain rfl := Host.Outcome.next.inj ((Machine.run_presented_append s pre [i]).symm.trans ht)
  rw [Machine.output_eq] at hr
  obtain ⟨_, _, _, hreading, _⟩ := Machine.eq_of_reading_eq_some hr
  have htemp : ((Machine.afterSamples s pre).presented [i]).val.read Config.codeTemp =
      (Machine.latestValue 0x42 (Machine.fieldsOf s.params pre)).or (s.val.read 0x42) :=
    Machine.read_afterSamples hrun hpoll 0x42
  rw [hreading, htemp]
  cases (Machine.latestValue 0x42 (Machine.fieldsOf s.params pre)).or (s.val.read 0x42) with
  | none => exact ⟨rfl, rfl⟩
  | some v => exact ⟨rfl, rfl⟩

/-- Settles O54: agreement on what a cycle reads is kept by every operation, which then shows the same output. -/
theorem outputsDependOnWhatIsRead : Obligations.OutputsDependOnWhatIsRead := by
  intro k s s' hrun hparams hins hread
  refine Machine.trace_congr k ⟨hrun, hparams, fun h => ?_, fun h => ?_⟩ hins
  · exact (hread h).1
  · exact (hread h).2

/-- Settles O55: the two reset states agree on all that a cycle reads. -/
theorem resetForgetsThePast : Obligations.ResetForgetsThePast := by
  intro k s s' t t' hparams hins ht ht'
  obtain rfl := (Machine.exec_reset_eq_next_iff s t).mp ht
  obtain rfl := (Machine.exec_reset_eq_next_iff s' t').mp ht'
  exact Machine.trace_congr k (Machine.agreeOnRead_installReset hparams) hins

end Sys2Proof
